-- ==== Sys2Proof/Word.lean ====
section
/-! DEFINITION. The value types of the block: `u64` words and addresses and `u8` bytes (00_scope.md R8, R9). -/

namespace Sys2Proof

/-- A `u64` value: a register, a write operand, a read result (00_scope.md R8, `DATA_WIDTH` = 64; log entry 20). -/
abbrev Word := BitVec 64

/-- A `u64` physical byte address (00_scope.md R8, `ADDR_WIDTH` = 64). -/
abbrev Addr := BitVec 64

/-- One console byte (00_scope.md R8, `BYTE` = 8 bits). -/
abbrev Byte := BitVec 8

end Sys2Proof
end

