-- ==== Sys2Proof/Config.lean ====
section
/-! DEFINITION. The implementation parameters of 00_scope.md R8: the address range table and the other literals as
one configuration record with the spec's values as defaults (92_eei_decisions.md D17), the opaque operand types, and
the two parameters the spec leaves open. -/

namespace Sys2Proof.Config

/-- The access-width tag: an opaque type whose encoding the spec leaves OPEN and which no rule reads (00_scope.md R8;
92_eei_decisions.md D8). DESIGN CHOICE (log entry 8): any natural number is a tag, so that every countable set of tags
embeds in it. Safe: every value is legal and none is inspected. -/
abbrev WidthTag := Nat

/-- The kind operand of an atomic operation: opaque, OPEN and never inspected (00_scope.md R8; D9). DESIGN CHOICE
(log entry 8), safe for the same reason as `WidthTag`. -/
abbrev AmoKind := Nat

/-- One entry of the address range table: the half-open window from `base` up to `base + size` (20_memory.md R41). -/
structure Window where
  base : Addr
  size : Word
  deriving DecidableEq, Repr

/-- The first address past a window: `limit = base + size` (20_memory.md R41). -/
def Window.limit (w : Window) : Addr := w.base + w.size

/-- The configuration record of 92_eei_decisions.md D17: the address map of 20_memory.md R41, the sentinel of R8 and
the reset values of 10_state.md R36, each with the value the spec states (log entry 12). -/
structure Platform where
  consoleOut : Window := ⟨0x0000_0000_0000_FFF4#64, 8#64⟩
  uart : Window := ⟨0x0000_0000_0000_2710#64, 0x80#64⟩
  mtime : Window := ⟨0x0000_0000_0200_BFF8#64, 8#64⟩
  mtimecmp : Window := ⟨0x0000_0000_0200_4000#64, 8#64⟩
  msip : Window := ⟨0x0000_0000_0200_0000#64, 8#64⟩
  sentinel : Word := 0xAAAA_AAAA_AAAA_AAAA#64
  resetMtime : Word := 1#64
  resetMtimecmp : Word := 0#64
  resetMsip : Word := 0#64
  resetTip : Bool := false
  deriving DecidableEq, Repr

/-- The address range table in table order (20_memory.md R41). -/
def Platform.ranges (p : Platform) : List Window := [p.consoleOut, p.uart, p.mtime, p.mtimecmp, p.msip]

/-- The platform this model runs: every parameter at the value the spec states. -/
def platform : Platform := {}

/-- The console-out port: the base of its window (20_memory.md R44). -/
def consoleOutAddr : Addr := platform.consoleOut.base

/-- The UART-out port: UART base + 0 (20_memory.md R44; 90_conflicts.md C4). -/
def uartOutAddr : Addr := platform.uart.base

/-- The address bound to `mtime` (20_memory.md R44). -/
def mtimeAddr : Addr := platform.mtime.base

/-- The address bound to `mtimecmp` (20_memory.md R44). -/
def mtimecmpAddr : Addr := platform.mtimecmp.base

/-- The address bound to `msip` (20_memory.md R44). -/
def msipAddr : Addr := platform.msip.base

/-- The number the caller's trap logic gives the one fault: OPEN (60_exceptions.md R141; 92_eei_decisions.md D12). It
has no body, so no proof can rest on a value of it (log entry 10). -/
opaque faultCode : Nat

/-- The width tag of a text line that omits `w=`: "an arbitrary tag" (30_encoding.md R71). A free value with no body
(log entry 8). -/
opaque omittedTag : WidthTag

/-- The width tag a name in a text line stands for: OPEN, as the encoding of tags is (92_eei_decisions.md D8). A free
value with no body (log entry 8). -/
opaque tagNamed : List Char → WidthTag

/-- The kind a name such as `add` in a text line stands for: OPEN, as the encoding of kinds is (92_eei_decisions.md
D9). A free value with no body (log entry 8). -/
opaque amoKindNamed : List Char → AmoKind

end Sys2Proof.Config
end

