-- ==== Sys2Proof/Syntax.lean ====
section
/-! DEFINITION. The transactions of the block, one constructor per row of spec/opcode_table.json (30_encoding.md R60,
R62, R65, R66). A constructor carries the operands of its format that its row leaves free, in the spec's order; an
address that the row fixes is not repeated as an operand. -/

namespace Sys2Proof

open Config (WidthTag AmoKind)

/-- A transaction of the block. -/
inductive Instr where
  /-- CLASSIFY (40_classifier.md R80). -/
  | classify (addr : Addr)
  /-- READ.mtime (41_read.md R91). -/
  | readMtime (wtag : WidthTag)
  /-- READ.mtimecmp (41_read.md R92). -/
  | readMtimecmp (wtag : WidthTag)
  /-- READ.msip (41_read.md R93). -/
  | readMsip (wtag : WidthTag)
  /-- READ.other (41_read.md R94). -/
  | readOther (wtag : WidthTag) (addr : Addr)
  /-- WRITE.console (42_write.md R101). -/
  | writeConsole (wtag : WidthTag) (value : Word)
  /-- WRITE.uart_out (42_write.md R102). -/
  | writeUartOut (wtag : WidthTag) (value : Word)
  /-- WRITE.uart_other (42_write.md R103). -/
  | writeUartOther (wtag : WidthTag) (addr : Addr) (value : Word)
  /-- WRITE.mtime (42_write.md R104). -/
  | writeMtime (wtag : WidthTag) (value : Word)
  /-- WRITE.mtimecmp (42_write.md R105). -/
  | writeMtimecmp (wtag : WidthTag) (value : Word)
  /-- WRITE.msip (42_write.md R106). -/
  | writeMsip (wtag : WidthTag) (value : Word)
  /-- WRITE.other (42_write.md R107). -/
  | writeOther (wtag : WidthTag) (addr : Addr) (value : Word)
  /-- AMO (43_atomic.md R110). -/
  | amo (addr : Addr) (wtag : WidthTag) (kind : AmoKind) (aq rl : Bool) (value : Word)
  /-- DRAIN (44_console.md R120). -/
  | drain
  /-- READ_ALL (44_console.md R121). -/
  | readAll
  /-- TICK (45_timer.md R130). -/
  | tick
  /-- RESERVED: the row of `op = 111`, which encodes no transaction (30_encoding.md R63). -/
  | reserved
  deriving DecidableEq, Repr

end Sys2Proof
end

