-- ==== Sys2Proof/WellFormed.lean ====
section
/-! DEFINITION. Which terms of `Instr` some request encodes: the address operand of READ.other, WRITE.uart_other and
WRITE.other must meet the address condition of its row (30_encoding.md R65, R66). Every other row fixes or ignores the
address, and every value of its operands is legal (R68). -/

namespace Sys2Proof

/-- The addresses READ rows 1 to 3 bind (30_encoding.md R65). -/
def readBound (a : Addr) : Bool :=
  a == Config.mtimeAddr || a == Config.mtimecmpAddr || a == Config.msipAddr

/-- The UART block but not its offset 0: `0x2711 <= addr < 0x2790` (30_encoding.md R66 row 3). -/
def uartOtherRange (a : Addr) : Bool :=
  decide (Config.platform.uart.base < a) && decide (a < Config.platform.uart.limit)

/-- The addresses WRITE rows 1 to 6 bind (30_encoding.md R66). -/
def writeBound (a : Addr) : Bool :=
  a == Config.consoleOutAddr || a == Config.uartOutAddr || uartOtherRange a ||
    a == Config.mtimeAddr || a == Config.mtimecmpAddr || a == Config.msipAddr

/-- The term is one that a request decodes to. -/
def Instr.wellFormed : Instr → Bool
  | .readOther _ addr => !readBound addr
  | .writeUartOther _ addr _ => uartOtherRange addr
  | .writeOther _ addr _ => !writeBound addr
  | .classify _ | .readMtime _ | .readMtimecmp _ | .readMsip _ => true
  | .writeConsole _ _ | .writeUartOut _ _ => true
  | .writeMtime _ _ | .writeMtimecmp _ _ | .writeMsip _ _ => true
  | .amo _ _ _ _ _ _ | .drain | .readAll | .tick | .reserved => true

end Sys2Proof
end

