-- ==== Sys2Proof/Decode.lean ====
section
/-! DEFINITION. The transaction request as it is presented, its decoding by operation field and address
(30_encoding.md R60 to R70), the encoder, the opcode table as data, and the assembly of the text lines of R71. -/

namespace Sys2Proof

open Config (WidthTag AmoKind)

/-- The eight values of the operation field (30_encoding.md R62). -/
inductive Op where
  | classify
  | read
  | write
  | amo
  | drain
  | readAll
  | tick
  | reserved
  deriving DecidableEq, Repr

/-- A transaction request: the operation field and the operand fields of 30_encoding.md R60. A format that lacks a
field ignores it. -/
structure Request where
  op : BitVec 3
  addr : Addr := 0
  wtag : WidthTag := 0
  amoKind : AmoKind := 0
  aq : Bool := false
  rl : Bool := false
  value : Word := 0
  deriving DecidableEq, Repr

/-- The operation field's meaning (30_encoding.md R62). -/
def Op.ofBits (b : BitVec 3) : Op :=
  if b = 0b000#3 then .classify
  else if b = 0b001#3 then .read
  else if b = 0b010#3 then .write
  else if b = 0b011#3 then .amo
  else if b = 0b100#3 then .drain
  else if b = 0b101#3 then .readAll
  else if b = 0b110#3 then .tick
  else .reserved

/-- The bits of an operation (30_encoding.md R62). -/
def Op.toBits : Op → BitVec 3
  | .classify => 0b000#3
  | .read => 0b001#3
  | .write => 0b010#3
  | .amo => 0b011#3
  | .drain => 0b100#3
  | .readAll => 0b101#3
  | .tick => 0b110#3
  | .reserved => 0b111#3

/-- The 67-bit decode key `(op << 64) | addr` (30_encoding.md R64). -/
def Request.key (r : Request) : BitVec 67 := r.op ++ r.addr

/-- READ decode, rows in table order (30_encoding.md R65). -/
def decodeRead (r : Request) : Instr :=
  if r.addr = Config.mtimeAddr then .readMtime r.wtag
  else if r.addr = Config.mtimecmpAddr then .readMtimecmp r.wtag
  else if r.addr = Config.msipAddr then .readMsip r.wtag
  else .readOther r.wtag r.addr

/-- WRITE decode, rows in table order (30_encoding.md R66). -/
def decodeWrite (r : Request) : Instr :=
  if r.addr = Config.consoleOutAddr then .writeConsole r.wtag r.value
  else if r.addr = Config.uartOutAddr then .writeUartOut r.wtag r.value
  else if Config.platform.uart.base < r.addr ∧ r.addr < Config.platform.uart.limit then
    .writeUartOther r.wtag r.addr r.value
  else if r.addr = Config.mtimeAddr then .writeMtime r.wtag r.value
  else if r.addr = Config.mtimecmpAddr then .writeMtimecmp r.wtag r.value
  else if r.addr = Config.msipAddr then .writeMsip r.wtag r.value
  else .writeOther r.wtag r.addr r.value

/-- The transaction a request asks for: total, with `op = 111` decoded to the table's RESERVED row, which the machine
refuses (30_encoding.md R63, R64, R69). -/
def decode (r : Request) : Instr :=
  match Op.ofBits r.op with
  | .classify => .classify r.addr
  | .read => decodeRead r
  | .write => decodeWrite r
  | .amo => .amo r.addr r.wtag r.amoKind r.aq r.rl r.value
  | .drain => .drain
  | .readAll => .readAll
  | .tick => .tick
  | .reserved => .reserved

/-- The request that encodes a transaction (30_encoding.md R60, R62, R65, R66); a field the row leaves out is 0. -/
def encode : Instr → Request
  | .classify addr => { op := Op.classify.toBits, addr }
  | .readMtime wtag => { op := Op.read.toBits, addr := Config.mtimeAddr, wtag }
  | .readMtimecmp wtag => { op := Op.read.toBits, addr := Config.mtimecmpAddr, wtag }
  | .readMsip wtag => { op := Op.read.toBits, addr := Config.msipAddr, wtag }
  | .readOther wtag addr => { op := Op.read.toBits, addr, wtag }
  | .writeConsole wtag value => { op := Op.write.toBits, addr := Config.consoleOutAddr, wtag, value }
  | .writeUartOut wtag value => { op := Op.write.toBits, addr := Config.uartOutAddr, wtag, value }
  | .writeUartOther wtag addr value => { op := Op.write.toBits, addr, wtag, value }
  | .writeMtime wtag value => { op := Op.write.toBits, addr := Config.mtimeAddr, wtag, value }
  | .writeMtimecmp wtag value => { op := Op.write.toBits, addr := Config.mtimecmpAddr, wtag, value }
  | .writeMsip wtag value => { op := Op.write.toBits, addr := Config.msipAddr, wtag, value }
  | .writeOther wtag addr value => { op := Op.write.toBits, addr, wtag, value }
  | .amo addr wtag amoKind aq rl value => { op := Op.amo.toBits, addr, wtag, amoKind, aq, rl, value }
  | .drain => { op := Op.drain.toBits }
  | .readAll => { op := Op.readAll.toBits }
  | .tick => { op := Op.tick.toBits }
  | .reserved => { op := Op.reserved.toBits }

/-- The request whose key is `k` and whose operands outside the key are 0. -/
def Request.ofKey (k : BitVec 67) : Request := { op := k.extractLsb' 64 3, addr := k.extractLsb' 0 64 }

/-- The request of a table word of `nbits` bits: the key as spec/opcode_table.json numbers it, bit 0 the least
significant, every operand outside the key 0. A word with a bit set above the key's 67 is no key and gives none
(log entry 21). -/
def Request.ofTableWord (nbits w : Nat) : Option Request :=
  if w % 2 ^ nbits < 2 ^ 67 then some (Request.ofKey (BitVec.ofNat 67 (w % 2 ^ nbits))) else none

/-- The transaction the decoder reads from a table word. -/
def decodeTableWord (nbits w : Nat) : Option Instr := (Request.ofTableWord nbits w).map decode

/-- The row's mnemonic in spec/opcode_table.json. -/
def Instr.mnemonic : Instr → String
  | .classify _ => "CLASSIFY"
  | .readMtime _ => "READ.mtime"
  | .readMtimecmp _ => "READ.mtimecmp"
  | .readMsip _ => "READ.msip"
  | .readOther _ _ => "READ.other"
  | .writeConsole _ _ => "WRITE.console"
  | .writeUartOut _ _ => "WRITE.uart_out"
  | .writeUartOther _ _ _ => "WRITE.uart_other"
  | .writeMtime _ _ => "WRITE.mtime"
  | .writeMtimecmp _ _ => "WRITE.mtimecmp"
  | .writeMsip _ _ => "WRITE.msip"
  | .writeOther _ _ _ => "WRITE.other"
  | .amo _ _ _ _ _ _ => "AMO"
  | .drain => "DRAIN"
  | .readAll => "READ_ALL"
  | .tick => "TICK"
  | .reserved => "RESERVED"

/-- One row of spec/opcode_table.json: a key matches when its masked bits are the pattern and, where the row gives an
address range, its address lies in it (lower end included, upper end excluded). -/
structure TableRow where
  mnemonic : String
  pattern : BitVec 67
  mask : BitVec 67
  range : Option (Addr × Addr) := none
  deriving DecidableEq, Repr

/-- The key meets the row's condition. -/
def TableRow.admits (row : TableRow) (k : BitVec 67) : Bool :=
  k &&& row.mask == row.pattern &&
    match row.range with
    | none => true
    | some (lo, hi) => decide (lo ≤ k.extractLsb' 0 64) && decide (k.extractLsb' 0 64 < hi)

/-- The mask of a row that looks at `op` alone. -/
def opMask : BitVec 67 := 0x70000000000000000#67

/-- The mask of a row that looks at `op` and the whole address. -/
def keyMask : BitVec 67 := 0x7FFFFFFFFFFFFFFFF#67

/-- spec/opcode_table.json, row by row in its order; a later row is tried only where no earlier one admits the key
(30_encoding.md R64). -/
def tableRows : List TableRow :=
  [ { mnemonic := "CLASSIFY", pattern := 0x00000000000000000#67, mask := opMask },
    { mnemonic := "READ.mtime", pattern := 0x1000000000200BFF8#67, mask := keyMask },
    { mnemonic := "READ.mtimecmp", pattern := 0x10000000002004000#67, mask := keyMask },
    { mnemonic := "READ.msip", pattern := 0x10000000002000000#67, mask := keyMask },
    { mnemonic := "READ.other", pattern := 0x10000000000000000#67, mask := opMask },
    { mnemonic := "WRITE.console", pattern := 0x2000000000000FFF4#67, mask := keyMask } ] ++
  [ { mnemonic := "WRITE.uart_out", pattern := 0x20000000000002710#67, mask := keyMask },
    { mnemonic := "WRITE.uart_other", pattern := 0x20000000000000000#67, mask := opMask, range := some (0x2711#64, 0x2790#64) },
    { mnemonic := "WRITE.mtime", pattern := 0x2000000000200BFF8#67, mask := keyMask },
    { mnemonic := "WRITE.mtimecmp", pattern := 0x20000000002004000#67, mask := keyMask },
    { mnemonic := "WRITE.msip", pattern := 0x20000000002000000#67, mask := keyMask },
    { mnemonic := "WRITE.other", pattern := 0x20000000000000000#67, mask := opMask } ] ++
  [ { mnemonic := "AMO", pattern := 0x30000000000000000#67, mask := opMask },
    { mnemonic := "DRAIN", pattern := 0x40000000000000000#67, mask := opMask },
    { mnemonic := "READ_ALL", pattern := 0x50000000000000000#67, mask := opMask },
    { mnemonic := "TICK", pattern := 0x60000000000000000#67, mask := opMask },
    { mnemonic := "RESERVED", pattern := 0x70000000000000000#67, mask := opMask } ]

/-- The rows that stand before a catch-all of their operation: the bound addresses of READ and WRITE (30_encoding.md
R65 rows 1 to 3, R66 rows 1 to 6). -/
def boundRows : List TableRow :=
  tableRows.filter fun row => row.mask == keyMask || row.range.isSome

/-- A transaction line of the text form (30_encoding.md R71); `wtag` is none where the line omits `w=`. -/
inductive Line where
  | classify (addr : Addr)
  | read (wtag : Option WidthTag) (addr : Addr)
  | write (wtag : Option WidthTag) (addr : Addr) (value : Word)
  | amo (wtag : Option WidthTag) (addr : Addr) (kind : AmoKind) (aq rl : Bool) (value : Word)
  | drain
  | readAll
  | tick
  deriving DecidableEq, Repr

/-- The encoding of a line: "its `op` value with its field values" (30_encoding.md R71). -/
def assemble : Line → Request
  | .classify addr => { op := Op.classify.toBits, addr }
  | .read wtag addr => { op := Op.read.toBits, addr, wtag := wtag.getD Config.omittedTag }
  | .write wtag addr value => { op := Op.write.toBits, addr, wtag := wtag.getD Config.omittedTag, value }
  | .amo wtag addr amoKind aq rl value =>
    { op := Op.amo.toBits, addr, wtag := wtag.getD Config.omittedTag, amoKind, aq, rl, value }
  | .drain => { op := Op.drain.toBits }
  | .readAll => { op := Op.readAll.toBits }
  | .tick => { op := Op.tick.toBits }

end Sys2Proof
end

