-- ==== Sys2Proof/Machine/State.lean ====
section
/-! DEFINITION. The state of the machine: the block's six fields (10_state.md R20), and beside them the two ends of
its transaction interface, which are the model's own; the responses a transaction gives (30_encoding.md R61); reset. -/

namespace Sys2Proof.Machine

/-- The result of READ, WRITE and AMO: a value or the one fault, which carries no payload (30_encoding.md R61;
60_exceptions.md R140, R143). -/
inductive Result where
  | ok (v : Word)
  | storeAmoAccessFault
  deriving DecidableEq, Repr

/-- The response of a transaction (30_encoding.md R61). -/
inductive Response where
  /-- CLASSIFY. -/
  | isIo (b : Bool)
  /-- READ, WRITE, AMO. -/
  | result (r : Result)
  /-- DRAIN. -/
  | drainedBytes (bytes : List Byte)
  /-- READ_ALL. -/
  | fullBytes (bytes : List Byte)
  /-- TICK. -/
  | interruptPending (b : Bool)
  deriving DecidableEq, Repr

/-- What the caller presents to the block: a transaction, or the reset event, which stands outside the `op` encoding
(70_reset_and_hazards.md R160). -/
inductive Input where
  | reset
  | request (r : Request)
  deriving DecidableEq, Repr

/-- The block's state, exactly the tuple of 10_state.md R20. -/
structure Block where
  mtime : Word
  mtimecmp : Word
  msip : Word
  consoleConsumed : List Byte
  consolePending : List Byte
  tip : Bool
  deriving DecidableEq, Repr

/-- The machine's state. `inputs` (what the caller has lined up, next first; 20_memory.md R50, 92_eei_decisions.md
D20; log entry 2) and `responses` (what the block has answered since the last reset, oldest first; 30_encoding.md R61;
log entry 3) are the model's fields: no rule of the block reads them. -/
structure State where
  block : Block
  inputs : List Input
  responses : List Response
  deriving DecidableEq, Repr

/-- The reasons a run could stop with a fault: there is none. The spec's one fault is a returned result after which
the caller goes on (60_exceptions.md R140), so it is a `Response` and no stop (log entry 5). Nobody raises a `Fault`;
safe. -/
inductive Fault where
  deriving DecidableEq, Repr

/-- The reasons the model refuses a request. -/
inductive Refusal where
  /-- Raised by an arm of `exec` whose transaction has no meaning yet; no arm of this model does. Safe. -/
  | notModelled (mnemonic : String)
  /-- Raised by `execReserved`: `op = 111` encodes no transaction, and the run is marked refused (30_encoding.md R63;
  92_eei_decisions.md D7; log entry 4). Safe. -/
  | reservedOp
  deriving DecidableEq, Repr

/-- The outcome of a step. -/
abbrev Outcome := Host.Outcome State Fault Refusal

/-- The block right after reset (10_state.md R36; 70_reset_and_hazards.md R160). -/
def Block.reset : Block where
  mtime := Config.platform.resetMtime
  mtimecmp := Config.platform.resetMtimecmp
  msip := Config.platform.resetMsip
  consoleConsumed := []
  consolePending := []
  tip := Config.platform.resetTip

/-- The machine right after reset, with no input lined up and nothing answered yet. -/
def State.reset : State where
  block := Block.reset
  inputs := []
  responses := []

end Sys2Proof.Machine
end

