-- ==== Sys2Proof/Machine/Flags.lean ====
section
/-! DEFINITION. The one flag of the block: the timer comparison that TICK puts into the latch `tip`, and the output
that presents the latch (45_timer.md R130, R131, R132; 10_state.md R27). -/

namespace Sys2Proof.Machine

/-- The comparator: `mtimecmp >= mtime`, unsigned over 64 bits, in the direction the spec makes normative
(45_timer.md R132; 90_conflicts.md C5). -/
def timerFires (b : Block) : Bool := decide (b.mtimecmp ≥ b.mtime)

/-- The continuous output `timer_interrupt_pending = S.tip` (30_encoding.md R61; 10_state.md R27). -/
def timerInterruptPending (s : State) : Bool := s.block.tip

end Sys2Proof.Machine
end

