-- ==== Sys2Proof/Machine/Operands.lean ====
section
/-! DEFINITION. Operand assembly (30_encoding.md R67): what a transaction takes of its `value` operand. -/

namespace Sys2Proof.Machine

/-- The console byte `value[7:0]`; `value[63:8]` is dropped (30_encoding.md R67; 42_write.md R101, R102). -/
def consoleByte (value : Word) : Byte := value.extractLsb' 0 8

/-- What a register takes of the operand: `value[63:0]`, all 64 bits whatever the width tag (20_memory.md R46;
30_encoding.md R67). -/
def registerValue (value : Word) : Word := value

end Sys2Proof.Machine
end

