-- ==== Sys2Proof/Machine/Ops.lean ====
section
/-! DEFINITION. The shared operations of the machine: the classifier function, the console buffer, completing a
transaction with its response, the one fault, and taking the next input or a reset. -/

namespace Sys2Proof.Machine

/-- The address lies in the half-open window (20_memory.md R41). -/
def inWindow (w : Config.Window) (a : Addr) : Bool := decide (w.base ≤ a) && decide (a < w.limit)

/-- The walk of the address range table in table order, first match wins (40_classifier.md R80). -/
def classifyIn : List Config.Window → Addr → Bool
  | [], _ => false
  | w :: rest, a => if inWindow w a then true else classifyIn rest a

/-- The combinational classifier function `is_io(addr)` (40_classifier.md R80, R81). -/
def isIo (a : Addr) : Bool := classifyIn Config.platform.ranges a

/-- Append one byte to the pending half (42_write.md R101, R102). -/
def appendConsole (b : Block) (byte : Byte) : Block := { b with consolePending := b.consolePending ++ [byte] }

/-- Move the pending half onto the end of the consumed half (44_console.md R120). -/
def drainConsole (b : Block) : Block :=
  { b with consoleConsumed := b.consoleConsumed ++ b.consolePending, consolePending := [] }

/-- The full console history (10_state.md R26; 44_console.md R121). -/
def consoleHistory (b : Block) : List Byte := b.consoleConsumed ++ b.consolePending

/-- The TICK's update of the block, from the pre-tick values (45_timer.md R130, R131; the wrap of `mtime` is R133). -/
def tickBlock (b : Block) : Block :=
  { b with
    mtime := b.mtime + 1
    mtimecmp := if timerFires b then 0 else b.mtimecmp
    tip := timerFires b }

/-- The value of a successful WRITE's result (42_write.md R100; for the three registers 92_eei_decisions.md D3). -/
def writeOk : Response := .result (.ok 0)

/-- Answer a transaction: the response joins those given (30_encoding.md R61). -/
def respond (s : State) (r : Response) : State := { s with responses := s.responses ++ [r] }

/-- A transaction completes: the block takes its new state and the caller its response, as one step
(20_memory.md R49; 10_state.md R35). -/
def complete (s : State) (b : Block) (r : Response) : Outcome := .next (respond { s with block := b } r)

/-- `raise StoreAMOAccessFault()`: the fault is the result of the transaction and the block keeps its state
(00_scope.md R10; 60_exceptions.md R140, R144). It saves nothing, changes no mode and selects no vector (R148), and
the block has no return operation to match it (R149). -/
def raiseStoreAmoAccessFault (s : State) : Outcome := complete s s.block (.result .storeAmoAccessFault)

/-- The next input the caller presents, and the state once it is taken; none when nothing is presented. -/
def takeInput (s : State) : Option (Input × State) :=
  match s.inputs with
  | [] => none
  | i :: rest => some (i, { s with inputs := rest })

/-- The reset event: every field of the block at its reset value and the machine's answers starting afresh; what the
caller still has lined up stays (70_reset_and_hazards.md R160; 92_eei_decisions.md D21; log entries 3 and 18). -/
def takeReset (s : State) : State := { State.reset with inputs := s.inputs }

/-- A step with no input: nothing in the block acts unless the caller invokes it (60_exceptions.md R156;
70_reset_and_hazards.md R172; log entry 2). -/
def idle (s : State) : Outcome := .next s

/-- The caller presents a request ahead of everything it has lined up. -/
def presentRequest (s : State) (r : Request) : State := { s with inputs := .request r :: s.inputs }

end Sys2Proof.Machine
end

