-- ==== Sys2Proof/Machine/Atomic.lean ====
section
/-! DEFINITION. The meaning of AMO (43_atomic.md). -/

namespace Sys2Proof.Machine

/-- AMO: the fault at every address and for every operand, nothing read and nothing written (43_atomic.md R110). -/
def execAmo (_addr : Addr) (_wtag : Config.WidthTag) (_kind : Config.AmoKind) (_aq _rl : Bool) (_value : Word)
    (s : State) : Outcome :=
  raiseStoreAmoAccessFault s

end Sys2Proof.Machine
end

