-- ==== Sys2Proof/Machine/Classifier.lean ====
section
/-! DEFINITION. The meaning of CLASSIFY (40_classifier.md). -/

namespace Sys2Proof.Machine

/-- CLASSIFY (40_classifier.md R80). -/
def execClassify (addr : Addr) (s : State) : Outcome := complete s s.block (.isIo (isIo addr))

end Sys2Proof.Machine
end

