-- ==== Sys2Proof/Machine/Console.lean ====
section
/-! DEFINITION. The meanings of DRAIN and READ_ALL (44_console.md). -/

namespace Sys2Proof.Machine

/-- DRAIN: the pending bytes are returned and become consumed (44_console.md R120). -/
def execDrain (s : State) : Outcome := complete s (drainConsole s.block) (.drainedBytes s.block.consolePending)

/-- READ_ALL: the full history, nothing changes (44_console.md R121). -/
def execReadAll (s : State) : Outcome := complete s s.block (.fullBytes (consoleHistory s.block))

end Sys2Proof.Machine
end

