-- ==== Sys2Proof/Machine/Read.lean ====
section
/-! DEFINITION. The meanings of the READ rows (41_read.md): a value is returned and nothing changes (R90). -/

namespace Sys2Proof.Machine

/-- A READ returns `Ok(v)` and leaves the block as it is (41_read.md R90). -/
def readResult (s : State) (v : Word) : Outcome := complete s s.block (.result (.ok v))

/-- READ.mtime (41_read.md R91). -/
def execReadMtime (_wtag : Config.WidthTag) (s : State) : Outcome := readResult s s.block.mtime

/-- READ.mtimecmp (41_read.md R92). -/
def execReadMtimecmp (_wtag : Config.WidthTag) (s : State) : Outcome := readResult s s.block.mtimecmp

/-- READ.msip (41_read.md R93). -/
def execReadMsip (_wtag : Config.WidthTag) (s : State) : Outcome := readResult s s.block.msip

/-- READ.other: the sentinel (41_read.md R94; log entry 7). -/
def execReadOther (_wtag : Config.WidthTag) (_addr : Addr) (s : State) : Outcome :=
  readResult s Config.platform.sentinel

end Sys2Proof.Machine
end

