-- ==== Sys2Proof/Machine/Reserved.lean ====
section
/-! DEFINITION. The stop of the RESERVED row (30_encoding.md R63). -/

namespace Sys2Proof.Machine

/-- `op = 111` encodes no transaction: no result, no next state, the run is marked refused (30_encoding.md R63). -/
def execReserved (_s : State) : Outcome := .refused .reservedOp

end Sys2Proof.Machine
end

