-- ==== Sys2Proof/Machine/Timer.lean ====
section
/-! DEFINITION. The meaning of TICK (45_timer.md). -/

namespace Sys2Proof.Machine

/-- TICK: one indivisible step from the pre-tick values (45_timer.md R130; 92_eei_decisions.md D25). -/
def execTick (s : State) : Outcome := complete s (tickBlock s.block) (.interruptPending (timerFires s.block))

end Sys2Proof.Machine
end

