-- ==== Sys2Proof/Machine/Write.lean ====
section
/-! DEFINITION. The meanings of the WRITE rows (42_write.md). -/

namespace Sys2Proof.Machine

/-- A WRITE to a console port appends the low byte of the operand (42_write.md R101, R102). -/
def writeConsolePort (value : Word) (s : State) : Outcome :=
  complete s (appendConsole s.block (consoleByte value)) writeOk

/-- WRITE.console (42_write.md R101). -/
def execWriteConsole (_wtag : Config.WidthTag) (value : Word) (s : State) : Outcome := writeConsolePort value s

/-- WRITE.uart_out (42_write.md R102). -/
def execWriteUartOut (_wtag : Config.WidthTag) (value : Word) (s : State) : Outcome := writeConsolePort value s

/-- WRITE.uart_other: accepted, no effect (42_write.md R103). -/
def execWriteUartOther (_wtag : Config.WidthTag) (_addr : Addr) (_value : Word) (s : State) : Outcome :=
  complete s s.block writeOk

/-- WRITE.mtime (42_write.md R104); no privilege check (60_exceptions.md R151). -/
def execWriteMtime (_wtag : Config.WidthTag) (value : Word) (s : State) : Outcome :=
  complete s { s.block with mtime := registerValue value } writeOk

/-- WRITE.mtimecmp (42_write.md R105). -/
def execWriteMtimecmp (_wtag : Config.WidthTag) (value : Word) (s : State) : Outcome :=
  complete s { s.block with mtimecmp := registerValue value } writeOk

/-- WRITE.msip (42_write.md R106). -/
def execWriteMsip (_wtag : Config.WidthTag) (value : Word) (s : State) : Outcome :=
  complete s { s.block with msip := registerValue value } writeOk

/-- WRITE.other: always the fault (42_write.md R107). -/
def execWriteOther (_wtag : Config.WidthTag) (_addr : Addr) (_value : Word) (s : State) : Outcome :=
  raiseStoreAmoAccessFault s

end Sys2Proof.Machine
end

