-- ==== Sys2Proof/Machine/Dispatch.lean ====
section
/-! DEFINITION. The dispatch of a transaction to its meaning, one arm per row of spec/opcode_table.json. -/

namespace Sys2Proof.Machine

/-- The outcome of one transaction. -/
def exec (i : Instr) (s : State) : Host.Outcome State Fault Refusal :=
  match i with
  | .classify addr => Sys2Proof.Machine.execClassify addr s
  | .readMtime wtag => Sys2Proof.Machine.execReadMtime wtag s
  | .readMtimecmp wtag => Sys2Proof.Machine.execReadMtimecmp wtag s
  | .readMsip wtag => Sys2Proof.Machine.execReadMsip wtag s
  | .readOther wtag addr => Sys2Proof.Machine.execReadOther wtag addr s
  | .writeConsole wtag value => Sys2Proof.Machine.execWriteConsole wtag value s
  | .writeUartOut wtag value => Sys2Proof.Machine.execWriteUartOut wtag value s
  | .writeUartOther wtag addr value => Sys2Proof.Machine.execWriteUartOther wtag addr value s
  | .writeMtime wtag value => Sys2Proof.Machine.execWriteMtime wtag value s
  | .writeMtimecmp wtag value => Sys2Proof.Machine.execWriteMtimecmp wtag value s
  | .writeMsip wtag value => Sys2Proof.Machine.execWriteMsip wtag value s
  | .writeOther wtag addr value => Sys2Proof.Machine.execWriteOther wtag addr value s
  | .amo addr wtag kind aq rl value => Sys2Proof.Machine.execAmo addr wtag kind aq rl value s
  | .drain => Sys2Proof.Machine.execDrain s
  | .readAll => Sys2Proof.Machine.execReadAll s
  | .tick => Sys2Proof.Machine.execTick s
  | .reserved => Sys2Proof.Machine.execReserved s

end Sys2Proof.Machine
end

