-- ==== Sys2Proof/Machine/Step.lean ====
section
/-! DEFINITION. One step of the machine: the next input of the caller is taken and acted on (20_memory.md R49, R50;
70_reset_and_hazards.md R160). -/

namespace Sys2Proof.Machine

/-- One step: a reset, the transaction of a request, or, where nothing is presented, no change. -/
def step (s : State) : Host.Outcome State Fault Refusal :=
  match takeInput s with
  | none => idle s
  | some (.reset, t) => .next (takeReset t)
  | some (.request r, t) => exec (decode r) t

/-- The state with the request of a table word presented as the very next input; a word that is no key (a bit set
above the 67 of 30_encoding.md R64) presents nothing (log entry 21). -/
def State.withFetchWord (s : State) (nbits w : Nat) : State :=
  match Request.ofTableWord nbits w with
  | some r => presentRequest s r
  | none => s

end Sys2Proof.Machine
end

