-- ==== Sys2Proof/Machine/Caller.lean ====
section
/-! DEFINITION. The caller's side of the interface: its memory primitives routed through the classifier
(00_scope.md R10; 20_memory.md R43), and the cause number its trap logic gives the fault (60_exceptions.md R141). -/

namespace Sys2Proof.Machine

/-- `MemRead(addr, n)`: where the classifier accepts the address, a READ with the byte count as width tag; otherwise
the access is not the block's (00_scope.md R10). -/
def memRead (addr : Addr) (n : Nat) : Option Request :=
  if isIo addr then some { op := Op.read.toBits, addr, wtag := n } else none

/-- `MemWrite(addr, n, v)`: where the classifier accepts the address, a WRITE with the byte count as width tag;
otherwise the access is not the block's (00_scope.md R10). -/
def memWrite (addr : Addr) (n : Nat) (v : Word) : Option Request :=
  if isIo addr then some { op := Op.write.toBits, addr, wtag := n, value := v } else none

/-- The number the caller's trap logic gives a result: the open `FAULT_CODE` for the fault, none otherwise
(60_exceptions.md R141; log entry 10). -/
def causeNumber : Result → Option Nat
  | .ok _ => none
  | .storeAmoAccessFault => some Config.faultCode

end Sys2Proof.Machine
end

