-- ==== Sys2Proof/Safety.lean ====
section
/-! DEFINITION. The terms in which claims speak: the host's duty H1 as a premise (70_reset_and_hazards.md R171), the
requests that encode a transaction, what a stream of requests says should have happened (appended bytes, written
values, TICKs), and the invariant of the machine. -/

namespace Sys2Proof

open Machine

/-- The host keeps duty H1 for this request: it presents a READ, WRITE or AMO only at an address the classifier
accepts (70_reset_and_hazards.md R171 H1; 20_memory.md R43). -/
def keepsH1 (r : Request) : Bool :=
  match Op.ofBits r.op with
  | .read | .write | .amo => isIo r.addr
  | .classify | .drain | .readAll | .tick | .reserved => true

/-- The request encodes a transaction: its `op` is not the reserved 111 (30_encoding.md R63). -/
def encodesTransaction (r : Request) : Bool := r.op != 0b111#3

/-- The next input, if any, is a reset or encodes a transaction. -/
def nextInputDefined (s : State) : Bool :=
  match s.inputs with
  | .request r :: _ => encodesTransaction r
  | .reset :: _ => true
  | [] => true

/-- The request is a WRITE at this address. -/
def writesAt (a : Addr) (r : Request) : Bool := r.op == Op.write.toBits && r.addr == a

/-- The request is a TICK. -/
def isTick (r : Request) : Bool := r.op == Op.tick.toBits

/-- The byte a request puts on the console: the low 8 bits of a WRITE to console-out or UART-out
(10_state.md R25, R26). -/
def consoleByteOf (r : Request) : Option Byte :=
  if writesAt 0xFFF4#64 r || writesAt 0x2710#64 r then some (r.value.setWidth 8) else none

/-- The bytes appended since the last reset of a stream that follows the bytes `sofar` (10_state.md R26). -/
def bytesAppended (sofar : List Byte) : List Input → List Byte
  | [] => sofar
  | .reset :: rest => bytesAppended [] rest
  | .request r :: rest => bytesAppended (sofar ++ (consoleByteOf r).toList) rest

/-- The inputs of a stream are resets or encode a transaction. -/
def streamDefined (is : List Input) : Bool :=
  is.all fun i =>
    match i with
    | .reset => true
    | .request r => encodesTransaction r

/-- The value of the last WRITE at an address in a stream of requests, or the value before it (20_memory.md R50). -/
def lastWritten (a : Addr) (before : Word) : List Request → Word
  | [] => before
  | r :: rest => lastWritten a (if writesAt a r then r.value else before) rest

/-- `mtime` as a stream of requests leaves it: the last WRITE's value, plus one for every TICK since, modulo 2^64
(10_state.md R21; 20_memory.md R50). -/
def mtimeAfter (before : Word) : List Request → Word
  | [] => before
  | r :: rest =>
    mtimeAfter (if writesAt 0x0200_BFF8#64 r then r.value else if isTick r then before + 1 else before) rest

/-- The bytes that DRAIN responses delivered, in order (44_console.md R120). -/
def drainedBytesOf : List Response → List Byte
  | [] => []
  | .drainedBytes bytes :: rest => bytes ++ drainedBytesOf rest
  | _ :: rest => drainedBytesOf rest

/-- The flag of the latest TICK response, or `before` where there is none (45_timer.md R131). -/
def lastTickFlag (before : Bool) : List Response → Bool
  | [] => before
  | .interruptPending p :: rest => lastTickFlag p rest
  | _ :: rest => lastTickFlag before rest

/-- The invariant of the machine: the consumed half is what DRAINs have delivered since reset (10_state.md R24), the
latch holds what the latest TICK returned and is false before the first (R27, R36; 45_timer.md R131), and every
READ_ALL snapshot given since reset is a beginning of the console history (R26). -/
structure InterfaceConsistent (s : State) : Prop where
  consumed : s.block.consoleConsumed = drainedBytesOf s.responses
  latch : s.block.tip = lastTickFlag false s.responses
  snapshots : ∀ bytes, Response.fullBytes bytes ∈ s.responses → bytes <+: consoleHistory s.block

end Sys2Proof
end

