-- ==== Sys2Proof/Certificates/Slice0/Obligations.lean ====
section
/-! DEFINITION. The statements for the provers, from the numbered rules of spec/ (addresses, operation codes and reset
values are written out here as the spec gives them, not taken from the model's configuration). -/

open Sys2Proof Sys2Proof.Machine

/-! ## Reset and the step -/

/-- 10_state.md R36, 70_reset_and_hazards.md R160: the values reset leaves, at the start and in mid-run. That `tip` is
false is the spec's decision D5, and what a mid-run reset restores its decision D21; the two interface fields and what
a reset leaves in them are the model's choice (log entries 2, 3 and 18). -/
def Obligations.ResetLeavesTheResetValues : Prop :=
  State.reset =
      { block := { mtime := 1, mtimecmp := 0, msip := 0, consoleConsumed := [], consolePending := [], tip := false },
        inputs := [], responses := [] } ∧
    ∀ (s : State) (rest : List Input), s.inputs = .reset :: rest →
      step s = .next
        { block := { mtime := 1, mtimecmp := 0, msip := 0, consoleConsumed := [], consolePending := [], tip := false },
          inputs := rest, responses := [] }

/-- 20_memory.md R49, R50: a step takes the next request of the stream and runs exactly the transaction it decodes
to; the stream as a list in the state, and an idle step where nothing is presented, are the model's choice (log
entry 2). -/
def Obligations.StepRunsTheDecodedTransaction : Prop :=
  (∀ (s : State) (r : Request) (rest : List Input) (i : Instr),
      s.inputs = .request r :: rest → decode r = i → step s = exec i { s with inputs := rest }) ∧
    ∀ s : State, s.inputs = [] → step s = .next s

/-- 60_exceptions.md R140, 30_encoding.md R63, R69: every presented transaction and reset goes on; only a presented
`op = 111` stops the machine, and it is refused (D7, log entry 4). That a step with nothing presented goes on too, as an
idle step, is the model's choice and no rule of the spec (DESIGN CHOICE, log entry 2). -/
def Obligations.StepStopsOnlyAtTheReservedOp : Prop :=
  ∀ s : State,
    (nextInputDefined s = true → ∃ t, step s = .next t) ∧
      (nextInputDefined s = false → step s = .refused .reservedOp)

/-! ## Encoding -/

/-- Words written out from the spec, decoded. The CLASSIFY, READ, WRITE and AMO words are keys of 95_test_vectors.md;
the DRAIN, READ_ALL, TICK and RESERVED words are the match values of opcode_table.json, since 95_test_vectors.md gives
those transactions their `op` alone. The numbering of `op` is the spec's decision D6 (log entry 1); that a word is the
key alone, so that the tag, value, kind and flags decode to 0, is the model's choice (DESIGN CHOICE, log entry 21). -/
def Obligations.SpecKeysDecodeToTheirRows : Prop :=
  decodeTableWord 72 0x0_0000_0000_0000_270F = some (.classify 0x270F#64) ∧
    decodeTableWord 72 0x1_0000_0000_0200_BFF8 = some (.readMtime 0) ∧
    decodeTableWord 72 0x1_0000_0000_0200_BFFC = some (.readOther 0 0x0200_BFFC#64) ∧
    decodeTableWord 72 0x2_0000_0000_0000_FFF4 = some (.writeConsole 0 0) ∧
    decodeTableWord 72 0x2_0000_0000_0000_278F = some (.writeUartOther 0 0x278F#64 0) ∧
    decodeTableWord 72 0x2_0000_0000_0000_2790 = some (.writeOther 0 0x2790#64 0) ∧
    decodeTableWord 72 0x3_0000_0000_0200_4000 = some (.amo 0x0200_4000#64 0 0 false false 0) ∧
    decodeTableWord 72 0x4_0000_0000_0000_0000 = some .drain ∧
    decodeTableWord 72 0x5_0000_0000_0000_0000 = some .readAll ∧
    decodeTableWord 72 0x6_0000_0000_0000_0000 = some .tick ∧
    decodeTableWord 72 0x7_0000_0000_0000_0000 = some .reserved

/-- Every well-formed transaction is given back by decoding its encoding, at every value of its operands
(30_encoding.md R60, R62, R65, R66; the binary form is decision D6). -/
def Obligations.DecodeOfEncodeIsTheTransaction : Prop :=
  ∀ i : Instr, i.wellFormed = true → decode (encode i) = i

/-- Every request decodes to a well-formed transaction (30_encoding.md R69: no key with `op` in 001 to 011 is
undecodable), and encoding it again gives the same `op`, and for formats C, R, W and A the same key. -/
def Obligations.EveryRequestDecodesAndKeepsItsKey : Prop :=
  ∀ r : Request,
    (decode r).wellFormed = true ∧ (encode (decode r)).op = r.op ∧
      (r.op.toNat ≤ 3 → (encode (decode r)).key = r.key)

/-- 30_encoding.md R64: the key, the first matching row of the opcode table, the rows before a catch-all never two at
once, and the address of no matter for formats N and A. -/
def Obligations.DecoderFollowsTheOpcodeTable : Prop :=
  (∀ r : Request, r.key.toNat = r.op.toNat * 2 ^ 64 + r.addr.toNat) ∧
    (∀ r : Request, (tableRows.find? (·.admits r.key)).map (·.mnemonic) = some (decode r).mnemonic) ∧
    (∀ k : BitVec 67, (boundRows.filter (·.admits k)).length ≤ 1) ∧
    ∀ r r' : Request, r.op = r'.op → 3 ≤ r.op.toNat → (decode r).mnemonic = (decode r').mnemonic

/-- 30_encoding.md R65, R66: the address picks the row of READ and of WRITE, in the order of the two lists. -/
def Obligations.AddressPicksTheReadAndWriteRow : Prop :=
  (∀ r : Request, r.op = 0b001#3 →
      decode r =
        if r.addr = 0x0200_BFF8#64 then .readMtime r.wtag
        else if r.addr = 0x0200_4000#64 then .readMtimecmp r.wtag
        else if r.addr = 0x0200_0000#64 then .readMsip r.wtag
        else .readOther r.wtag r.addr) ∧
    ∀ r : Request, r.op = 0b010#3 →
      decode r =
        if r.addr = 0xFFF4#64 then .writeConsole r.wtag r.value
        else if r.addr = 0x2710#64 then .writeUartOut r.wtag r.value
        else if 0x2711#64 ≤ r.addr ∧ r.addr < 0x2790#64 then .writeUartOther r.wtag r.addr r.value
        else if r.addr = 0x0200_BFF8#64 then .writeMtime r.wtag r.value
        else if r.addr = 0x0200_4000#64 then .writeMtimecmp r.wtag r.value
        else if r.addr = 0x0200_0000#64 then .writeMsip r.wtag r.value
        else .writeOther r.wtag r.addr r.value

/-- 30_encoding.md R63: `op = 111` encodes no transaction and the request is refused (D7, log entry 4). -/
def Obligations.ReservedOpIsRefused : Prop :=
  ∀ (r : Request) (s : State), r.op = 0b111#3 → decode r = .reserved ∧ exec .reserved s = .refused .reservedOp

/-- 30_encoding.md R71: a line's encoding is its `op` with its field values, and a line that omits `w=` has the outcome
it has with any tag (the text form is decision D26, log entries 8 and 25). -/
def Obligations.TextLinesEncodeTheirOperands : Prop :=
  (∀ (a : Addr) (w : Config.WidthTag) (k : Config.AmoKind) (aq rl : Bool) (v : Word),
      assemble (.classify a) = { op := 0b000#3, addr := a } ∧
        assemble (.read (some w) a) = { op := 0b001#3, addr := a, wtag := w } ∧
        assemble (.write (some w) a v) = { op := 0b010#3, addr := a, wtag := w, value := v } ∧
        assemble (.amo (some w) a k aq rl v) =
          { op := 0b011#3, addr := a, wtag := w, amoKind := k, aq := aq, rl := rl, value := v } ∧
        (assemble .drain).op = 0b100#3 ∧ (assemble .readAll).op = 0b101#3 ∧ (assemble .tick).op = 0b110#3) ∧
    ∀ (a : Addr) (w : Config.WidthTag) (k : Config.AmoKind) (aq rl : Bool) (v : Word) (s : State),
      exec (decode (assemble (.read none a))) s = exec (decode (assemble (.read (some w) a))) s ∧
        exec (decode (assemble (.write none a v))) s = exec (decode (assemble (.write (some w) a v))) s ∧
        exec (decode (assemble (.amo none a k aq rl v))) s = exec (decode (assemble (.amo (some w) a k aq rl v))) s

/-! ## CLASSIFY -/

/-- 40_classifier.md R80, R81: the answer is membership of one of the five half-open windows; nothing of the state is
read and nothing changes. -/
def Obligations.ClassifyAnswersTheFiveWindows : Prop :=
  ∀ (r : Request) (s : State), r.op = 0b000#3 →
    decode r = .classify r.addr ∧
      exec (.classify r.addr) s =
        .next
          { s with
            responses := s.responses ++
              [.isIo (decide
                ((0xFFF4#64 ≤ r.addr ∧ r.addr < 0xFFFC#64) ∨ (0x2710#64 ≤ r.addr ∧ r.addr < 0x2790#64) ∨
                  (0x0200_BFF8#64 ≤ r.addr ∧ r.addr < 0x0200_C000#64) ∨ (0x0200_4000#64 ≤ r.addr ∧ r.addr < 0x0200_4008#64) ∨
                  (0x0200_0000#64 ≤ r.addr ∧ r.addr < 0x0200_0008#64)))] }

/-- 20_memory.md R42, 90_conflicts.md C8: the windows are disjoint, so an address the classifier accepts lies in
exactly one of them. -/
def Obligations.ClassifiedAddressLiesInExactlyOneWindow : Prop :=
  ∀ a : Addr,
    isIo a = true ↔ ∃! w, w ∈ Config.platform.ranges ∧ w.base ≤ a ∧ a.toNat < w.base.toNat + w.size.toNat

/-- 40_classifier.md R82, 20_memory.md R42: 160 addresses are classified true. At exactly 3 of them READ decodes to a
register's row and reads that register back; at exactly 132 WRITE decodes to an accepting row and answers `Ok(0)`; at
exactly 28 it decodes to WRITE.other and answers the fault with nothing changed; and every address READ or WRITE binds
is classified true. The value 0 answered at the three registers is decision D3 (log entry 13). -/
def Obligations.CountsOfClassifiedAndBoundAddresses : Prop :=
  (∃ l : List Addr, l.Nodup ∧ l.length = 160 ∧ ∀ a, a ∈ l ↔ isIo a = true) ∧
    (∃ l : List Addr, l.Nodup ∧ l.length = 3 ∧
      (∀ a, a ∈ l ↔ isIo a = true ∧ ∀ w, decode { op := 0b001#3, addr := a, wtag := w } ≠ .readOther w a) ∧
      ∀ a ∈ l, ∃ register : Block → Word,
        (register = Block.mtime ∨ register = Block.mtimecmp ∨ register = Block.msip) ∧
          ∀ (w : Config.WidthTag) (s : State),
            exec (decode { op := 0b001#3, addr := a, wtag := w }) s =
              .next { s with responses := s.responses ++ [.result (.ok (register s.block))] }) ∧
    (∃ l : List Addr, l.Nodup ∧ l.length = 132 ∧
      (∀ a, a ∈ l ↔
        isIo a = true ∧ ∀ w v, decode { op := 0b010#3, addr := a, wtag := w, value := v } ≠ .writeOther w a v) ∧
      ∀ a ∈ l, ∀ (w : Config.WidthTag) (v : Word) (s : State), ∃ b : Block,
        exec (decode { op := 0b010#3, addr := a, wtag := w, value := v }) s =
          .next { s with block := b, responses := s.responses ++ [.result (.ok 0)] }) ∧
    (∃ l : List Addr, l.Nodup ∧ l.length = 28 ∧
      (∀ a, a ∈ l ↔
        isIo a = true ∧ ∀ w v, decode { op := 0b010#3, addr := a, wtag := w, value := v } = .writeOther w a v) ∧
      ∀ a ∈ l, ∀ (w : Config.WidthTag) (v : Word) (s : State),
        exec (decode { op := 0b010#3, addr := a, wtag := w, value := v }) s =
          .next { s with responses := s.responses ++ [.result .storeAmoAccessFault] }) ∧
    (∀ r : Request, r.op = 0b001#3 → decode r ≠ .readOther r.wtag r.addr → isIo r.addr = true) ∧
    ∀ r : Request, r.op = 0b010#3 → decode r ≠ .writeOther r.wtag r.addr r.value → isIo r.addr = true

/-! ## READ -/

/-- 41_read.md R91: READ.mtime returns the whole register whatever the tag and changes nothing; straight after reset
it returns 1. -/
def Obligations.ReadMtimeReturnsTheCounter : Prop :=
  (∀ (r : Request) (s : State), r.op = 0b001#3 → r.addr = 0x0200_BFF8#64 →
      decode r = .readMtime r.wtag ∧
        exec (.readMtime r.wtag) s = .next { s with responses := s.responses ++ [.result (.ok s.block.mtime)] }) ∧
    ∀ w, exec (.readMtime w) State.reset = .next { State.reset with responses := [.result (.ok 1)] }

/-- 41_read.md R92: READ.mtimecmp returns the whole register and changes nothing; after a TICK that fired it
returns 0. -/
def Obligations.ReadMtimecmpReturnsTheThreshold : Prop :=
  (∀ (r : Request) (s : State), r.op = 0b001#3 → r.addr = 0x0200_4000#64 →
      decode r = .readMtimecmp r.wtag ∧
        exec (.readMtimecmp r.wtag) s =
          .next { s with responses := s.responses ++ [.result (.ok s.block.mtimecmp)] }) ∧
    ∀ (w : Config.WidthTag) (s t : State), exec .tick s = .next t → s.block.mtime ≤ s.block.mtimecmp →
      exec (.readMtimecmp w) t = .next { t with responses := t.responses ++ [.result (.ok 0)] }

/-- 41_read.md R93: READ.msip returns all 64 bits verbatim and changes nothing. -/
def Obligations.ReadMsipReturnsTheWord : Prop :=
  ∀ (r : Request) (s : State), r.op = 0b001#3 → r.addr = 0x0200_0000#64 →
    decode r = .readMsip r.wtag ∧
      exec (.readMsip r.wtag) s = .next { s with responses := s.responses ++ [.result (.ok s.block.msip)] }

/-- 41_read.md R94: at any other address READ returns the sentinel and changes nothing; that the sentinel fills 64
bits is the spec's decision D2 (log entry 7). -/
def Obligations.ReadOtherReturnsTheSentinel : Prop :=
  ∀ (r : Request) (s : State), r.op = 0b001#3 → r.addr ≠ 0x0200_BFF8#64 → r.addr ≠ 0x0200_4000#64 → r.addr ≠ 0x0200_0000#64 →
    decode r = .readOther r.wtag r.addr ∧
      exec (.readOther r.wtag r.addr) s =
        .next { s with responses := s.responses ++ [.result (.ok 0xAAAA_AAAA_AAAA_AAAA#64)] }

/-- 41_read.md R90: every READ, at every address and tag, is one of the four rows, answers `Ok(v)` for some `v` and
leaves the whole block as it was. -/
def Obligations.EveryReadAnswersOkAndChangesNothing : Prop :=
  ∀ (r : Request) (s : State), r.op = 0b001#3 →
    (decode r = .readMtime r.wtag ∨ decode r = .readMtimecmp r.wtag ∨ decode r = .readMsip r.wtag ∨
        decode r = .readOther r.wtag r.addr) ∧
      ∃ v, exec (decode r) s = .next { s with responses := s.responses ++ [.result (.ok v)] }

/-! ## WRITE -/

/-- 42_write.md R101: WRITE.console appends `value[7:0]` and answers `Ok(0)`; the other 7 bytes of the console-out
window fault. -/
def Obligations.WriteConsoleAppendsTheLowByte : Prop :=
  (∀ (r : Request) (s : State), r.op = 0b010#3 → r.addr = 0xFFF4#64 →
      decode r = .writeConsole r.wtag r.value ∧
        exec (.writeConsole r.wtag r.value) s =
          .next
            { s with
              block := { s.block with consolePending := s.block.consolePending ++ [r.value.extractLsb' 0 8] }
              responses := s.responses ++ [.result (.ok 0)] }) ∧
    ∀ (r : Request) (s : State), r.op = 0b010#3 → 0xFFF4#64 < r.addr → r.addr < 0xFFFC#64 →
      exec (decode r) s = .next { s with responses := s.responses ++ [.result .storeAmoAccessFault] }

/-- 42_write.md R102: WRITE.uart_out does the same at 0x2710, and the two ports feed one buffer in write order. -/
def Obligations.WriteUartOutAppendsTheLowByte : Prop :=
  (∀ (r : Request) (s : State), r.op = 0b010#3 → r.addr = 0x2710#64 →
      decode r = .writeUartOut r.wtag r.value ∧
        exec (.writeUartOut r.wtag r.value) s =
          .next
            { s with
              block := { s.block with consolePending := s.block.consolePending ++ [r.value.extractLsb' 0 8] }
              responses := s.responses ++ [.result (.ok 0)] }) ∧
    ∀ (w w' : Config.WidthTag) (v v' : Word) (s t u : State),
      exec (.writeConsole w v) s = .next t → exec (.writeUartOut w' v') t = .next u →
        u.block.consolePending = s.block.consolePending ++ [v.extractLsb' 0 8, v'.extractLsb' 0 8]

/-- 42_write.md R103: WRITE.uart_other is accepted with `Ok(0)` and no effect, up to 0x278F; 0x2790 faults. -/
def Obligations.WriteUartOtherHasNoEffect : Prop :=
  (∀ (r : Request) (s : State), r.op = 0b010#3 → 0x2711#64 ≤ r.addr → r.addr < 0x2790#64 →
      decode r = .writeUartOther r.wtag r.addr r.value ∧
        exec (.writeUartOther r.wtag r.addr r.value) s =
          .next { s with responses := s.responses ++ [.result (.ok 0)] }) ∧
    ∀ (r : Request) (s : State), r.op = 0b010#3 → r.addr = 0x2790#64 →
      exec (decode r) s = .next { s with responses := s.responses ++ [.result .storeAmoAccessFault] }

/-- 42_write.md R104: WRITE.mtime stores all 64 bits, any value, and leaves `tip` and everything else alone. The
answer `Ok(0)` is decision D3 and the absence of a privilege check decision D14 (log entries 13 and 16). -/
def Obligations.WriteMtimeStoresTheValue : Prop :=
  ∀ (r : Request) (s : State), r.op = 0b010#3 → r.addr = 0x0200_BFF8#64 →
    decode r = .writeMtime r.wtag r.value ∧
      exec (.writeMtime r.wtag r.value) s =
        .next
          { s with
            block := { s.block with mtime := r.value }
            responses := s.responses ++ [.result (.ok 0)] }

/-- 42_write.md R105: WRITE.mtimecmp stores all 64 bits and leaves `tip` and everything else alone. The answer `Ok(0)`
is decision D3 (log entry 13). -/
def Obligations.WriteMtimecmpStoresTheValue : Prop :=
  ∀ (r : Request) (s : State), r.op = 0b010#3 → r.addr = 0x0200_4000#64 →
    decode r = .writeMtimecmp r.wtag r.value ∧
      exec (.writeMtimecmp r.wtag r.value) s =
        .next
          { s with
            block := { s.block with mtimecmp := r.value }
            responses := s.responses ++ [.result (.ok 0)] }

/-- 42_write.md R106: WRITE.msip stores all 64 bits unmasked and changes nothing else. The answer `Ok(0)` is decision
D3 (log entry 13). -/
def Obligations.WriteMsipStoresTheValue : Prop :=
  ∀ (r : Request) (s : State), r.op = 0b010#3 → r.addr = 0x0200_0000#64 →
    decode r = .writeMsip r.wtag r.value ∧
      exec (.writeMsip r.wtag r.value) s =
        .next
          { s with
            block := { s.block with msip := r.value }
            responses := s.responses ++ [.result (.ok 0)] }

/-- 42_write.md R107: at every other address WRITE answers the fault and changes nothing. -/
def Obligations.WriteOtherFaultsAndChangesNothing : Prop :=
  ∀ (r : Request) (s : State), r.op = 0b010#3 → r.addr ≠ 0xFFF4#64 → r.addr ≠ 0x2710#64 →
    ¬(0x2711#64 ≤ r.addr ∧ r.addr ≤ 0x278F#64) → r.addr ≠ 0x0200_BFF8#64 → r.addr ≠ 0x0200_4000#64 → r.addr ≠ 0x0200_0000#64 →
    decode r = .writeOther r.wtag r.addr r.value ∧
      exec (.writeOther r.wtag r.addr r.value) s =
        .next { s with responses := s.responses ++ [.result .storeAmoAccessFault] }

/-- 42_write.md R109: a register WRITE followed at once by a READ of the address returns the written value, and the
other registers keep theirs; a console WRITE has no read-back (D2, D3; log entries 7 and 13). -/
def Obligations.RegisterWriteThenReadRoundTrips : Prop :=
  ∀ (s : State) (rw rr : Request) (rest : List Input),
    s.inputs = .request rw :: .request rr :: rest → rw.op = 0b010#3 → rr.op = 0b001#3 → rr.addr = rw.addr →
      (rw.addr = 0x0200_BFF8#64 ∨ rw.addr = 0x0200_4000#64 ∨ rw.addr = 0x0200_0000#64 →
          ∃ t : State, Host.Core.run Sys2Proof.core 2 s = .next t ∧
            t.responses = s.responses ++ [.result (.ok 0), .result (.ok rw.value)] ∧ t.inputs = rest ∧
            t.block =
              { s.block with
                mtime := if rw.addr = 0x0200_BFF8#64 then rw.value else s.block.mtime
                mtimecmp := if rw.addr = 0x0200_4000#64 then rw.value else s.block.mtimecmp
                msip := if rw.addr = 0x0200_0000#64 then rw.value else s.block.msip }) ∧
        (rw.addr = 0xFFF4#64 ∨ rw.addr = 0x2710#64 →
          ∃ t : State, Host.Core.run Sys2Proof.core 2 s = .next t ∧
            t.responses = s.responses ++ [.result (.ok 0), .result (.ok 0xAAAA_AAAA_AAAA_AAAA#64)])

/-! ## AMO and the fault -/

/-- 43_atomic.md R110: AMO answers the fault at every address and for every operand, and changes nothing. -/
def Obligations.AmoAlwaysFaultsAndChangesNothing : Prop :=
  ∀ (r : Request) (s : State), r.op = 0b011#3 →
    decode r = .amo r.addr r.wtag r.amoKind r.aq r.rl r.value ∧
      exec (.amo r.addr r.wtag r.amoKind r.aq r.rl r.value) s =
        .next { s with responses := s.responses ++ [.result .storeAmoAccessFault] }

/-- 43_atomic.md R111: the fault of AMO and the fault of WRITE.other are one and the same outcome, so nothing after
them tells the two apart. -/
def Obligations.AmoFaultIsTheWriteFault : Prop :=
  ∀ (a a' : Addr) (w w' : Config.WidthTag) (k : Config.AmoKind) (aq rl : Bool) (v v' : Word) (s : State),
    exec (.amo a w k aq rl v) s = exec (.writeOther w' a' v') s ∧
      exec (.amo a w k aq rl v) s = .next { s with responses := s.responses ++ [.result .storeAmoAccessFault] }

/-- 60_exceptions.md R142, R144: exactly a WRITE at an unbound address and an AMO answer the fault, and a transaction
that answers it leaves the block as it was. -/
def Obligations.OnlyUnboundWritesAndAmoFault : Prop :=
  ∀ (r : Request) (s t : State), exec (decode r) s = .next t →
    (t.responses = s.responses ++ [.result .storeAmoAccessFault] ↔
        r.op = 0b011#3 ∨
          r.op = 0b010#3 ∧ r.addr ≠ 0xFFF4#64 ∧ r.addr ≠ 0x2710#64 ∧ ¬(0x2711#64 ≤ r.addr ∧ r.addr < 0x2790#64) ∧
            r.addr ≠ 0x0200_BFF8#64 ∧ r.addr ≠ 0x0200_4000#64 ∧ r.addr ≠ 0x0200_0000#64) ∧
      (t.responses = s.responses ++ [.result .storeAmoAccessFault] → t.block = s.block)

/-! ## Console -/

/-- 44_console.md R120: DRAIN returns the pending bytes, moves them onto the consumed half and empties the pending
half; with nothing pending it leaves the block as it is; a second DRAIN returns nothing. -/
def Obligations.DrainMovesThePendingBytes : Prop :=
  (∀ (r : Request) (s : State), r.op = 0b100#3 →
      decode r = .drain ∧
        exec .drain s =
          .next
            { s with
              block :=
                { s.block with
                  consoleConsumed := s.block.consoleConsumed ++ s.block.consolePending
                  consolePending := [] }
              responses := s.responses ++ [.drainedBytes s.block.consolePending] }) ∧
    (∀ s t : State, s.block.consolePending = [] → exec .drain s = .next t → t.block = s.block) ∧
    ∀ s t : State, exec .drain s = .next t →
      exec .drain t = .next { t with responses := t.responses ++ [.drainedBytes []] }

/-- 44_console.md R121: READ_ALL returns the full history and changes nothing; a DRAIN before it makes no difference;
at reset it returns nothing. -/
def Obligations.ReadAllReturnsTheFullHistory : Prop :=
  (∀ (r : Request) (s : State), r.op = 0b101#3 →
      decode r = .readAll ∧
        exec .readAll s =
          .next
            { s with
              responses := s.responses ++ [.fullBytes (s.block.consoleConsumed ++ s.block.consolePending)] }) ∧
    (∀ s t : State, exec .drain s = .next t →
      exec .readAll t =
        .next
          { t with responses := t.responses ++ [.fullBytes (s.block.consoleConsumed ++ s.block.consolePending)] }) ∧
    exec .readAll State.reset = .next { State.reset with responses := [.fullBytes []] }

/-- 10_state.md R24: only DRAIN writes the consumed half, and it only appends: what the half held stays at its front.
-/
def Obligations.OnlyDrainExtendsTheConsumedHalf : Prop :=
  ∀ (i : Instr) (s t : State), exec i s = .next t →
    (i ≠ .drain → t.block.consoleConsumed = s.block.consoleConsumed) ∧
      (i = .drain → t.block.consoleConsumed = s.block.consoleConsumed ++ s.block.consolePending)

/-- 44_console.md R123: the paths to the console buffer are the two appending WRITEs, DRAIN, READ_ALL and reset, and
no READ shows what it holds. -/
def Obligations.ConsoleBufferIsReachedOnlyThroughItsPaths : Prop :=
  (∀ (i : Instr) (s t : State), exec i s = .next t → (∀ w v, i ≠ .writeConsole w v) →
      (∀ w v, i ≠ .writeUartOut w v) → i ≠ .drain →
      t.block.consoleConsumed = s.block.consoleConsumed ∧ t.block.consolePending = s.block.consolePending) ∧
    (∀ (w : Config.WidthTag) (v : Word) (s t : State),
      exec (.writeConsole w v) s = .next t ∨ exec (.writeUartOut w v) s = .next t →
      t.block.consoleConsumed = s.block.consoleConsumed ∧
        t.block.consolePending = s.block.consolePending ++ [v.extractLsb' 0 8]) ∧
    (∀ s t : State, exec .drain s = .next t →
      t.block.consoleConsumed = s.block.consoleConsumed ++ s.block.consolePending ∧ t.block.consolePending = []) ∧
    (∀ s t : State, exec .readAll s = .next t →
      t.responses = s.responses ++ [.fullBytes (s.block.consoleConsumed ++ s.block.consolePending)]) ∧
    (∀ (s : State) (rest : List Input), s.inputs = .reset :: rest →
      ∃ t, step s = .next t ∧ t.block.consoleConsumed = [] ∧ t.block.consolePending = []) ∧
    ∀ (r : Request) (s s' : State), r.op = 0b001#3 → s.block.mtime = s'.block.mtime →
      s.block.mtimecmp = s'.block.mtimecmp → s.block.msip = s'.block.msip →
      ∃ v, exec (decode r) s = .next { s with responses := s.responses ++ [.result (.ok v)] } ∧
        exec (decode r) s' = .next { s' with responses := s'.responses ++ [.result (.ok v)] }

/-- 10_state.md R26: over every stream of resets and transactions from reset, the two halves together are the bytes
appended since the last reset, in order; the pending half becomes empty exactly when drained, and a DRAIN of an empty
half leaves it empty. R26 speaks of the reset a run starts from; that a reset in mid-run starts the history afresh is
the spec's decision D21 (log entry 18). -/
def Obligations.ConsoleHalvesAreTheWriteHistory : Prop :=
  (∀ is : List Input, streamDefined is = true →
      ∃ t : State, Host.Core.run Sys2Proof.core is.length { State.reset with inputs := is } = .next t ∧
        t.block.consoleConsumed ++ t.block.consolePending = bytesAppended [] is) ∧
    (∀ (i : Instr) (s t : State), exec i s = .next t → s.block.consolePending ≠ [] →
      (t.block.consolePending = [] ↔ i = .drain)) ∧
    ∀ s : State, s.block.consolePending = [] → ∃ t, exec .drain s = .next t ∧ t.block.consolePending = []

/-- 44_console.md R122: whatever transactions and resets came before, READ_ALL answers the concatenation of all bytes
written since the last reset, in write order. R122 speaks of the reset a run starts from; that a reset in mid-run
discards the history before it is the spec's decision D21 (log entry 18). -/
def Obligations.ReadAllAnswersEveryWrittenByte : Prop :=
  ∀ (is : List Input) (r : Request), streamDefined is = true → r.op = 0b101#3 →
    ∃ t : State,
      Host.Core.run Sys2Proof.core (is.length + 1) { State.reset with inputs := is ++ [.request r] } = .next t ∧
        t.responses.getLast? = some (.fullBytes (bytesAppended [] is))

/-! ## TICK and the timer -/

/-- 45_timer.md R130: TICK as the spec's pseudocode gives it, at every value. The wrap of `mtime` is decision D4 and
the latch decision D5 (log entries 14 and 6). -/
def Obligations.TickUpdatesTheTimer : Prop :=
  ∀ (r : Request) (s : State), r.op = 0b110#3 →
    decode r = .tick ∧
      exec .tick s =
        .next
          { s with
            block :=
              { s.block with
                mtime := BitVec.ofNat 64 ((s.block.mtime.toNat + 1) % 2 ^ 64)
                mtimecmp := if s.block.mtimecmp.toNat ≥ s.block.mtime.toNat then 0 else s.block.mtimecmp
                tip := decide (s.block.mtimecmp.toNat ≥ s.block.mtime.toNat) }
            responses :=
              s.responses ++ [.interruptPending (decide (s.block.mtimecmp.toNat ≥ s.block.mtime.toNat))] }

/-- 45_timer.md R136: the source's two tick outcomes, and that the TICK at machine creation returns false. (Below the
top value of `mtime`; `TickUpdatesTheTimer` gives the wrap, which is decision D4.) -/
def Obligations.TickHasTheTwoDocumentedOutcomes : Prop :=
  (∀ s : State, s.block.mtime.toNat + 1 < 2 ^ 64 → s.block.mtimecmp.toNat ≥ s.block.mtime.toNat →
      ∃ t, exec .tick s = .next t ∧ t.responses = s.responses ++ [.interruptPending true] ∧
        t.block.mtimecmp = 0 ∧ t.block.mtime.toNat = s.block.mtime.toNat + 1) ∧
    (∀ s : State, s.block.mtime.toNat + 1 < 2 ^ 64 → s.block.mtimecmp.toNat < s.block.mtime.toNat →
      ∃ t, exec .tick s = .next t ∧ t.responses = s.responses ++ [.interruptPending false] ∧
        t.block.mtimecmp = s.block.mtimecmp ∧ t.block.mtime.toNat = s.block.mtime.toNat + 1) ∧
    ∃ t, exec .tick State.reset = .next t ∧ t.responses = [.interruptPending false]

/-- 10_state.md R27, 45_timer.md R131: the latch keeps its value from one TICK to the next whatever else is presented,
and after a TICK the output presents what the TICK returned. The latch is decision D5 (log entry 6). -/
def Obligations.LatchHoldsTheLastTickFlag : Prop :=
  ∀ (i : Instr) (s t : State), exec i s = .next t →
    (i ≠ .tick → timerInterruptPending t = timerInterruptPending s) ∧
      (i = .tick → t.responses = s.responses ++ [.interruptPending (timerInterruptPending t)])

/-- 70_reset_and_hazards.md R164 to R167, 42_write.md R104, R105: a WRITE of `mtimecmp` or `mtime` just before a TICK
decides whether that TICK fires, at once and by `mtimecmp >= mtime`, in the TICK's answer and in the latch; a WRITE at
any address just after a TICK changes neither what the TICK returned nor the latch. The latch is decision D5 and the
answer `Ok(0)` of a register WRITE decision D3 (log entries 6 and 13). -/
def Obligations.WritesArmTheNextTickOnly : Prop :=
  ∀ (s : State) (rw rt : Request) (rest : List Input), rw.op = 0b010#3 → rt.op = 0b110#3 →
    (s.inputs = .request rw :: .request rt :: rest → rw.addr = 0x0200_4000#64 →
        ∃ t : State, Host.Core.run Sys2Proof.core 2 s = .next t ∧
          t.responses =
            s.responses ++
              [.result (.ok 0), .interruptPending (decide (s.block.mtime.toNat ≤ rw.value.toNat))] ∧
          timerInterruptPending t = decide (s.block.mtime.toNat ≤ rw.value.toNat)) ∧
      (s.inputs = .request rw :: .request rt :: rest → rw.addr = 0x0200_BFF8#64 →
        ∃ t : State, Host.Core.run Sys2Proof.core 2 s = .next t ∧
          t.responses =
            s.responses ++
              [.result (.ok 0), .interruptPending (decide (rw.value.toNat ≤ s.block.mtimecmp.toNat))] ∧
          timerInterruptPending t = decide (rw.value.toNat ≤ s.block.mtimecmp.toNat)) ∧
      (s.inputs = .request rt :: .request rw :: rest →
        ∃ (t : State) (x : Result), Host.Core.run Sys2Proof.core 2 s = .next t ∧
          t.responses =
            s.responses ++
              [.interruptPending (decide (s.block.mtime.toNat ≤ s.block.mtimecmp.toNat)), .result x] ∧
          timerInterruptPending t = decide (s.block.mtime.toNat ≤ s.block.mtimecmp.toNat))

/-- 45_timer.md R134: a TICK that fires is not followed by another that fires unless `mtime` wrapped in between; at
the top value (R133, decision D4, log entry 14) a TICK that fires is followed by a second, and then by none. -/
def Obligations.TimerFiresOnceButTwiceAtTheWrap : Prop :=
  ∀ (s : State) (r₁ r₂ r₃ : Request) (rest : List Input),
    s.inputs = .request r₁ :: .request r₂ :: .request r₃ :: rest → r₁.op = 0b110#3 → r₂.op = 0b110#3 → r₃.op = 0b110#3 →
    s.block.mtime.toNat ≤ s.block.mtimecmp.toNat →
    ∃ t : State, Host.Core.run Sys2Proof.core 3 s = .next t ∧
      t.responses =
        s.responses ++
          [.interruptPending true, .interruptPending (decide (s.block.mtime.toNat = 2 ^ 64 - 1)),
            .interruptPending (decide (s.block.mtime.toNat = 2 ^ 64 - 2))]

/-- 45_timer.md R134(c), 70_reset_and_hazards.md R165: with `mtimecmp` below `mtime` and nothing but TICKs, none fires
before `mtime` has counted up to the wrap, and `mtimecmp` stays. -/
def Obligations.DisarmedTimerCountsWithoutFiring : Prop :=
  ∀ (rs : List Request) (s : State), s.inputs = rs.map .request → (∀ r ∈ rs, r.op = 0b110#3) →
    s.block.mtimecmp.toNat < s.block.mtime.toNat → s.block.mtime.toNat + rs.length ≤ 2 ^ 64 →
    ∃ t : State, Host.Core.run Sys2Proof.core rs.length s = .next t ∧
      t.responses = s.responses ++ List.replicate rs.length (.interruptPending false) ∧
      t.block.mtimecmp = s.block.mtimecmp ∧
      t.block.mtime.toNat = (s.block.mtime.toNat + rs.length) % 2 ^ 64

/-- 70_reset_and_hazards.md R161: from reset, TICKs with no WRITE return false up to the `2^64`-th, which fires. -/
def Obligations.FirstFireAfterResetIsAtTheWrap : Prop :=
  ∀ rs : List Request, (∀ r ∈ rs, r.op = 0b110#3) → rs.length ≤ 2 ^ 64 →
    ∃ t : State,
      Host.Core.run Sys2Proof.core rs.length { State.reset with inputs := rs.map .request } = .next t ∧
        t.responses.length = rs.length ∧
        ∀ k, k < rs.length → t.responses[k]? = some (.interruptPending (decide (k + 1 = 2 ^ 64)))

/-! ## Whole-machine statements -/

/-- 20_memory.md R48, 42_write.md R108, 10_state.md R21 to R27: which transaction may change which field. Whatever is
not named for a field leaves it as it was; no transaction touches what the caller still has lined up, and each gives
exactly one response (60_exceptions.md R147; the interface fields are log entries 2 and 3). -/
def Obligations.EachFieldHasOnlyItsNamedWriters : Prop :=
  ∀ (i : Instr) (s t : State), exec i s = .next t →
    t.inputs = s.inputs ∧ (∃ r, t.responses = s.responses ++ [r]) ∧
      (i ≠ .tick → (∀ w v, i ≠ .writeMtime w v) → t.block.mtime = s.block.mtime) ∧
      (¬(i = .tick ∧ s.block.mtime ≤ s.block.mtimecmp) → (∀ w v, i ≠ .writeMtimecmp w v) →
        t.block.mtimecmp = s.block.mtimecmp) ∧
      ((∀ w v, i ≠ .writeMsip w v) → t.block.msip = s.block.msip) ∧
      (i ≠ .drain → t.block.consoleConsumed = s.block.consoleConsumed) ∧
      (i ≠ .drain → (∀ w v, i ≠ .writeConsole w v) → (∀ w v, i ≠ .writeUartOut w v) →
        t.block.consolePending = s.block.consolePending) ∧
      (i ≠ .tick → t.block.tip = s.block.tip)

/-- 60_exceptions.md R140, R142, R147: every transaction but the reserved row completes in every state. -/
def Obligations.EveryTransactionCompletes : Prop :=
  ∀ (i : Instr) (s : State), i ≠ .reserved → ∃ (b : Block) (r : Response),
    exec i s = .next { block := b, inputs := s.inputs, responses := s.responses ++ [r] }

/-- 20_memory.md R48: what doing a transaction twice does. -/
def Obligations.RepeatedTransactions : Prop :=
  (∀ (i : Instr) (w : Config.WidthTag) (v : Word) (s t : State),
      i = .writeMtime w v ∨ i = .writeMtimecmp w v ∨ i = .writeMsip w v → exec i s = .next t →
      ∃ u, exec i t = .next u ∧ u.block = t.block) ∧
    (∀ (i : Instr) (w : Config.WidthTag) (v : Word) (s t : State),
      i = .writeConsole w v ∨ i = .writeUartOut w v → exec i s = .next t →
      ∃ u, exec i t = .next u ∧
        u.block.consolePending = s.block.consolePending ++ [v.extractLsb' 0 8, v.extractLsb' 0 8]) ∧
    (∀ (r : Request) (s t : State) (x : Response), r.op = 0b001#3 → exec (decode r) s = .next t →
      t.responses = s.responses ++ [x] →
      ∃ u, exec (decode r) t = .next u ∧ u.block = s.block ∧ u.responses = s.responses ++ [x, x]) ∧
    ∀ s t : State, exec .tick s = .next t → t.block.mtime ≠ s.block.mtime

/-- 20_memory.md R46: no rule reads the width tag: two requests that differ only in it have one outcome; a READ at a
register address returns all 64 bits and a WRITE stores all 64 bits, whatever the tag. -/
def Obligations.WidthTagIsIgnored : Prop :=
  (∀ (r : Request) (w : Config.WidthTag) (s : State), exec (decode { r with wtag := w }) s = exec (decode r) s) ∧
    (∀ (a : Addr) (w : Config.WidthTag) (s : State) (v : Word),
      (a = 0x0200_BFF8#64 ∧ v = s.block.mtime) ∨ (a = 0x0200_4000#64 ∧ v = s.block.mtimecmp) ∨
        (a = 0x0200_0000#64 ∧ v = s.block.msip) →
      exec (decode { op := 0b001#3, addr := a, wtag := w }) s =
        .next { s with responses := s.responses ++ [.result (.ok v)] }) ∧
    ∀ (a : Addr) (w : Config.WidthTag) (s : State) (v : Word),
      ∃ t, exec (decode { op := 0b010#3, addr := a, wtag := w, value := v }) s = .next t ∧
        (a = 0x0200_BFF8#64 → t.block = { s.block with mtime := v }) ∧
        (a = 0x0200_4000#64 → t.block = { s.block with mtimecmp := v }) ∧
        (a = 0x0200_0000#64 → t.block = { s.block with msip := v })

/-- 30_encoding.md R67, R68: what a transaction does is settled by `op`, by the address for formats C, R and W, and by
the value for WRITE; no other operand matters (the opaque types are decisions D8 and D9, log entry 8). -/
def Obligations.IgnoredOperandsDoNotMatter : Prop :=
  ∀ (r r' : Request) (s : State), r.op = r'.op → (r.op.toNat ≤ 2 → r.addr = r'.addr) →
    (r.op = 0b010#3 → r.value = r'.value) → exec (decode r) s = exec (decode r') s

/-- 20_memory.md R57: at an address the classifier rejects, READ returns the sentinel, WRITE and AMO fault, and the
block keeps its state (decision D11; the sentinel's width is D2; log entries 15 and 7). -/
def Obligations.RejectedAddressesAreStillAnswered : Prop :=
  ∀ (r : Request) (s : State), isIo r.addr = false →
    (r.op = 0b001#3 →
        exec (decode r) s = .next { s with responses := s.responses ++ [.result (.ok 0xAAAA_AAAA_AAAA_AAAA#64)] }) ∧
      (r.op = 0b010#3 ∨ r.op = 0b011#3 →
        exec (decode r) s = .next { s with responses := s.responses ++ [.result .storeAmoAccessFault] })

/-- 20_memory.md R44, 70_reset_and_hazards.md R171 H1: while the caller classifies before it dispatches, a WRITE
faults exactly at the other 7 bytes of an 8-byte window. -/
def Obligations.UnderH1WritesFaultOnlyInsideRegisterWindows : Prop :=
  ∀ (r : Request) (s : State), r.op = 0b010#3 → keepsH1 r = true →
    (exec (decode r) s = .next { s with responses := s.responses ++ [.result .storeAmoAccessFault] } ↔
      (0xFFF5#64 ≤ r.addr ∧ r.addr ≤ 0xFFFB#64) ∨ (0x0200_BFF9#64 ≤ r.addr ∧ r.addr ≤ 0x0200_BFFF#64) ∨
        (0x0200_4001#64 ≤ r.addr ∧ r.addr ≤ 0x0200_4007#64) ∨ (0x0200_0001#64 ≤ r.addr ∧ r.addr ≤ 0x0200_0007#64))

/-- 00_scope.md R10, 20_memory.md R43: the caller's MemRead and MemWrite reach the block exactly where the classifier
accepts the address, as a READ or WRITE that keeps duty H1, and the byte count makes no difference. -/
def Obligations.CallerRoutesThroughTheClassifier : Prop :=
  ∀ (a : Addr) (n : Nat) (v : Word),
    (isIo a = false → memRead a n = none ∧ memWrite a n v = none) ∧
      (isIo a = true →
        ∃ rr rw : Request, memRead a n = some rr ∧ memWrite a n v = some rw ∧ keepsH1 rr = true ∧ keepsH1 rw = true ∧
          ∀ (s : State),
            exec (decode rr) s = exec (decode { op := 0b001#3, addr := a }) s ∧
              exec (decode rw) s = exec (decode { op := 0b010#3, addr := a, value := v }) s)

/-- 20_memory.md R50, 10_state.md R21, R23: over every stream of transactions, `msip` is the value of the most recent
WRITE to it, `mtime` is the most recent WRITE plus the TICKs since (wrapping by decision D4, log entry 14), and, where
no TICK is presented, `mtimecmp` is the most recent WRITE to it. -/
def Obligations.RegistersFollowTheTransactionStream : Prop :=
  ∀ (rs : List Request) (s : State), s.inputs = rs.map .request → (∀ r ∈ rs, encodesTransaction r = true) →
    ∃ t : State, Host.Core.run Sys2Proof.core rs.length s = .next t ∧
      t.inputs = [] ∧ t.responses.length = s.responses.length + rs.length ∧
      t.block.msip = lastWritten 0x0200_0000#64 s.block.msip rs ∧
      t.block.mtime = mtimeAfter s.block.mtime rs ∧
      ((∀ r ∈ rs, isTick r = false) → t.block.mtimecmp = lastWritten 0x0200_4000#64 s.block.mtimecmp rs)

/-- The invariant holds at reset (10_state.md R36; the interface fields are log entries 2 and 3). -/
def Obligations.ResetIsInterfaceConsistent : Prop :=
  InterfaceConsistent State.reset

/-- Every step keeps the invariant: the consumed half is what DRAINs delivered, the latch is the latest TICK's flag,
and every READ_ALL snapshot is a beginning of the history (10_state.md R24, R26, R27; 45_timer.md R131; the latch is
decision D5, the record of responses log entry 3). -/
def Obligations.StepKeepsInterfaceConsistent : Prop :=
  ∀ s t : State, InterfaceConsistent s → step s = .next t → InterfaceConsistent t
end

