-- ==== Sys2Proof/Laws/Decode.lean ====
section
/-! SUPPORT. The small lemmas of the encoding: the operation field, the key, the bound addresses as numbers. -/

namespace Sys2Proof

@[simp] theorem consoleOutAddr_eq : Config.consoleOutAddr = 0xFFF4#64 := by decide
@[simp] theorem uartOutAddr_eq : Config.uartOutAddr = 0x2710#64 := by decide
@[simp] theorem mtimeAddr_eq : Config.mtimeAddr = 0x0200_BFF8#64 := by decide
@[simp] theorem mtimecmpAddr_eq : Config.mtimecmpAddr = 0x0200_4000#64 := by decide
@[simp] theorem msipAddr_eq : Config.msipAddr = 0x0200_0000#64 := by decide
@[simp] theorem uart_base_eq : Config.platform.uart.base = 0x2710#64 := by decide
@[simp] theorem uart_limit_eq : Config.platform.uart.limit = 0x2790#64 := by decide

@[simp] theorem Op.ofBits_toBits (o : Op) : Op.ofBits o.toBits = o := by cases o <;> decide

@[simp] theorem Op.toBits_ofBits (b : BitVec 3) : (Op.ofBits b).toBits = b := by
  revert b
  decide

theorem Op.toBits_injective {o p : Op} (h : o.toBits = p.toBits) : o = p := by
  rw [← Op.ofBits_toBits o, ← Op.ofBits_toBits p, h]

/-- The key is the number `(op << 64) | addr` (30_encoding.md R64). -/
theorem Request.key_toNat (r : Request) : r.key.toNat = r.op.toNat * 2 ^ 64 + r.addr.toNat := by
  rw [Request.key, BitVec.toNat_append, Nat.shiftLeft_eq, Nat.mul_comm, ← Nat.two_pow_add_eq_or_of_lt r.addr.isLt]

@[simp] theorem Request.key_addr (r : Request) : r.key.extractLsb' 0 64 = r.addr := by
  apply BitVec.eq_of_toNat_eq
  have h := r.addr.isLt
  simp only [BitVec.extractLsb'_toNat, Request.key_toNat, Nat.shiftRight_zero]
  omega

@[simp] theorem Request.key_op (r : Request) : r.key.extractLsb' 64 3 = r.op := by
  apply BitVec.eq_of_toNat_eq
  have h := r.addr.isLt
  have h' := r.op.isLt
  simp only [BitVec.extractLsb'_toNat, Request.key_toNat, Nat.shiftRight_eq_div_pow]
  omega

/-- A request is given back by its key where its operands outside the key are 0. -/
theorem Request.ofKey_key (op : BitVec 3) (addr : Addr) :
    Request.ofKey ({ op, addr } : Request).key = { op, addr } := by
  simp [Request.ofKey]

theorem opMask_eq : opMask = 7#3 ++ 0#64 := by decide

theorem keyMask_eq : keyMask = 7#3 ++ BitVec.allOnes 64 := by decide

/-- Masking a key by a row's `op` mask leaves `op`. -/
theorem key_and_opMask (r : Request) : r.key &&& opMask = r.op ++ 0#64 := by
  have h : ∀ b : BitVec 3, b &&& 7#3 = b := by decide
  rw [Request.key, opMask_eq, BitVec.and_append, h, BitVec.and_zero]

/-- The full mask leaves the whole key. -/
theorem key_and_keyMask (r : Request) : r.key &&& keyMask = r.key := by
  have h : ∀ b : BitVec 3, b &&& 7#3 = b := by decide
  rw [Request.key, keyMask_eq, BitVec.and_append, h, BitVec.and_allOnes]

/-- An `op` with the bits of an operation is read as that operation. -/
theorem Op.ofBits_eq {b : BitVec 3} {o : Op} (h : b = o.toBits) : Op.ofBits b = o := by
  rw [h, Op.ofBits_toBits]

/-- The operation field has these eight values (30_encoding.md R62). -/
theorem op_cases (b : BitVec 3) :
    b = 0b000#3 ∨ b = 0b001#3 ∨ b = 0b010#3 ∨ b = 0b011#3 ∨ b = 0b100#3 ∨ b = 0b101#3 ∨ b = 0b110#3 ∨ b = 0b111#3 := by
  revert b
  decide

theorem decode_classify {r : Request} (h : r.op = 0b000#3) : decode r = .classify r.addr := by
  have : Op.ofBits r.op = .classify := Op.ofBits_eq h
  simp [decode, this]

theorem decode_read {r : Request} (h : r.op = 0b001#3) : decode r = decodeRead r := by
  have : Op.ofBits r.op = .read := Op.ofBits_eq h
  simp [decode, this]

theorem decode_write {r : Request} (h : r.op = 0b010#3) : decode r = decodeWrite r := by
  have : Op.ofBits r.op = .write := Op.ofBits_eq h
  simp [decode, this]

theorem decode_amo {r : Request} (h : r.op = 0b011#3) :
    decode r = .amo r.addr r.wtag r.amoKind r.aq r.rl r.value := by
  have : Op.ofBits r.op = .amo := Op.ofBits_eq h
  simp [decode, this]

theorem decode_drain {r : Request} (h : r.op = 0b100#3) : decode r = .drain := by
  have : Op.ofBits r.op = .drain := Op.ofBits_eq h
  simp [decode, this]

theorem decode_readAll {r : Request} (h : r.op = 0b101#3) : decode r = .readAll := by
  have : Op.ofBits r.op = .readAll := Op.ofBits_eq h
  simp [decode, this]

theorem decode_tick {r : Request} (h : r.op = 0b110#3) : decode r = .tick := by
  have : Op.ofBits r.op = .tick := Op.ofBits_eq h
  simp [decode, this]

theorem decode_reserved {r : Request} (h : r.op = 0b111#3) : decode r = .reserved := by
  have : Op.ofBits r.op = .reserved := Op.ofBits_eq h
  simp [decode, this]

/-- Only `op = 111` decodes to the RESERVED row. -/
theorem decode_ne_reserved {r : Request} (h : r.op ≠ 0b111#3) : decode r ≠ .reserved := by
  rcases op_cases r.op with h0 | h0 | h0 | h0 | h0 | h0 | h0 | h0
  · rw [decode_classify h0]; simp
  · rw [decode_read h0]; unfold decodeRead; split_ifs <;> simp
  · rw [decode_write h0]; unfold decodeWrite; split_ifs <;> simp
  · rw [decode_amo h0]; simp
  · rw [decode_drain h0]; simp
  · rw [decode_readAll h0]; simp
  · rw [decode_tick h0]; simp
  · exact absurd h0 h

end Sys2Proof
end

