-- ==== Sys2Proof/Laws/State.lean ====
section
/-! SUPPORT. One lemma per field per update of the state and of the block, so that no proof unfolds a record update. -/

namespace Sys2Proof.Machine

@[simp] theorem respond_block (s : State) (r : Response) : (respond s r).block = s.block := rfl
@[simp] theorem respond_inputs (s : State) (r : Response) : (respond s r).inputs = s.inputs := rfl
@[simp] theorem respond_responses (s : State) (r : Response) : (respond s r).responses = s.responses ++ [r] := rfl

@[simp] theorem takeReset_block (s : State) : (takeReset s).block = Block.reset := rfl
@[simp] theorem takeReset_inputs (s : State) : (takeReset s).inputs = s.inputs := rfl
@[simp] theorem takeReset_responses (s : State) : (takeReset s).responses = [] := rfl

@[simp] theorem presentRequest_block (s : State) (r : Request) : (presentRequest s r).block = s.block := rfl
@[simp] theorem presentRequest_inputs (s : State) (r : Request) :
    (presentRequest s r).inputs = .request r :: s.inputs := rfl
@[simp] theorem presentRequest_responses (s : State) (r : Request) :
    (presentRequest s r).responses = s.responses := rfl

@[simp] theorem appendConsole_mtime (b : Block) (c : Byte) : (appendConsole b c).mtime = b.mtime := rfl
@[simp] theorem appendConsole_mtimecmp (b : Block) (c : Byte) : (appendConsole b c).mtimecmp = b.mtimecmp := rfl
@[simp] theorem appendConsole_msip (b : Block) (c : Byte) : (appendConsole b c).msip = b.msip := rfl
@[simp] theorem appendConsole_consoleConsumed (b : Block) (c : Byte) :
    (appendConsole b c).consoleConsumed = b.consoleConsumed := rfl
@[simp] theorem appendConsole_consolePending (b : Block) (c : Byte) :
    (appendConsole b c).consolePending = b.consolePending ++ [c] := rfl
@[simp] theorem appendConsole_tip (b : Block) (c : Byte) : (appendConsole b c).tip = b.tip := rfl

@[simp] theorem drainConsole_mtime (b : Block) : (drainConsole b).mtime = b.mtime := rfl
@[simp] theorem drainConsole_mtimecmp (b : Block) : (drainConsole b).mtimecmp = b.mtimecmp := rfl
@[simp] theorem drainConsole_msip (b : Block) : (drainConsole b).msip = b.msip := rfl
@[simp] theorem drainConsole_consoleConsumed (b : Block) :
    (drainConsole b).consoleConsumed = b.consoleConsumed ++ b.consolePending := rfl
@[simp] theorem drainConsole_consolePending (b : Block) : (drainConsole b).consolePending = [] := rfl
@[simp] theorem drainConsole_tip (b : Block) : (drainConsole b).tip = b.tip := rfl

@[simp] theorem tickBlock_mtime (b : Block) : (tickBlock b).mtime = b.mtime + 1 := rfl
@[simp] theorem tickBlock_mtimecmp (b : Block) :
    (tickBlock b).mtimecmp = if timerFires b then 0 else b.mtimecmp := rfl
@[simp] theorem tickBlock_msip (b : Block) : (tickBlock b).msip = b.msip := rfl
@[simp] theorem tickBlock_consoleConsumed (b : Block) : (tickBlock b).consoleConsumed = b.consoleConsumed := rfl
@[simp] theorem tickBlock_consolePending (b : Block) : (tickBlock b).consolePending = b.consolePending := rfl
@[simp] theorem tickBlock_tip (b : Block) : (tickBlock b).tip = timerFires b := rfl

@[simp] theorem reset_block : State.reset.block = Block.reset := rfl
@[simp] theorem reset_inputs : State.reset.inputs = [] := rfl
@[simp] theorem reset_responses : State.reset.responses = [] := rfl

end Sys2Proof.Machine
end

