-- ==== Sys2Proof/Laws/Ops.lean ====
section
/-! SUPPORT. What each shared operation can do, said once. -/

namespace Sys2Proof.Machine

/-- A completed transaction answers exactly one next state. -/
theorem complete_eq_next {s t : State} {b : Block} {r : Response} (h : complete s b r = .next t) :
    t = { block := b, inputs := s.inputs, responses := s.responses ++ [r] } := by
  cases h
  rfl

/-- The fault is an answer: the block is as it was (60_exceptions.md R144). -/
theorem raiseStoreAmoAccessFault_eq_next {s t : State} (h : raiseStoreAmoAccessFault s = .next t) :
    t = { s with responses := s.responses ++ [.result .storeAmoAccessFault] } :=
  complete_eq_next h

/-- A WRITE to a console port appends one byte and answers `Ok(0)`. -/
theorem writeConsolePort_eq_next {s t : State} {v : Word} (h : writeConsolePort v s = .next t) :
    t = { block := appendConsole s.block (consoleByte v), inputs := s.inputs,
          responses := s.responses ++ [writeOk] } :=
  complete_eq_next h

/-- A READ answers its value and changes nothing (41_read.md R90). -/
theorem readResult_eq_next {s t : State} {v : Word} (h : readResult s v = .next t) :
    t = { s with responses := s.responses ++ [.result (.ok v)] } :=
  complete_eq_next h

/-- Taking an input: nothing where none is presented, else the first one. -/
theorem takeInput_cases (s : State) :
    (s.inputs = [] ∧ takeInput s = none) ∨
      ∃ i rest, s.inputs = i :: rest ∧ takeInput s = some (i, { s with inputs := rest }) := by
  cases h : s.inputs with
  | nil => exact .inl ⟨rfl, by simp [takeInput, h]⟩
  | cons i rest => exact .inr ⟨i, rest, rfl, by simp [takeInput, h]⟩

/-- A register takes the whole operand (20_memory.md R46). -/
@[simp] theorem registerValue_eq (v : Word) : registerValue v = v := rfl

/-- The console byte is the operand modulo 256 (30_encoding.md R67). -/
theorem consoleByte_eq (v : Word) : consoleByte v = v.setWidth 8 :=
  (BitVec.setWidth_eq_extractLsb' (by decide)).symm

theorem inWindow_iff (w : Config.Window) (a : Addr) : inWindow w a = true ↔ w.base ≤ a ∧ a < w.limit := by
  simp [inWindow]

/-- First match wins, so the walk answers whether any window of the table matches (40_classifier.md R80). -/
theorem classifyIn_iff (ws : List Config.Window) (a : Addr) :
    classifyIn ws a = true ↔ ∃ w ∈ ws, inWindow w a = true := by
  induction ws with
  | nil => simp [classifyIn]
  | cons w ws ih => by_cases h : inWindow w a = true <;> simp [classifyIn, h, ih]

/-- The classifier accepts exactly the five windows of 20_memory.md R41. -/
theorem isIo_iff (a : Addr) :
    isIo a = true ↔
      (0xFFF4#64 ≤ a ∧ a < 0xFFFC#64) ∨ (0x2710#64 ≤ a ∧ a < 0x2790#64) ∨
        (0x0200_BFF8#64 ≤ a ∧ a < 0x0200_C000#64) ∨ (0x0200_4000#64 ≤ a ∧ a < 0x0200_4008#64) ∨
          (0x0200_0000#64 ≤ a ∧ a < 0x0200_0008#64) := by
  simp only [isIo, classifyIn_iff, inWindow_iff]
  constructor
  · rintro ⟨w, hw, h⟩
    fin_cases hw
    · exact .inl h
    · exact .inr (.inl h)
    · exact .inr (.inr (.inl h))
    · exact .inr (.inr (.inr (.inl h)))
    · exact .inr (.inr (.inr (.inr h)))
  · rintro (h | h | h | h | h)
    · exact ⟨Config.platform.consoleOut, by decide, h⟩
    · exact ⟨Config.platform.uart, by decide, h⟩
    · exact ⟨Config.platform.mtime, by decide, h⟩
    · exact ⟨Config.platform.mtimecmp, by decide, h⟩
    · exact ⟨Config.platform.msip, by decide, h⟩

theorem timerFires_iff (b : Block) : timerFires b = true ↔ b.mtime ≤ b.mtimecmp := by
  simp [timerFires]

/-- Draining keeps the full history (44_console.md R121). -/
@[simp] theorem consoleHistory_drainConsole (b : Block) : consoleHistory (drainConsole b) = consoleHistory b := by
  simp [consoleHistory]

@[simp] theorem consoleHistory_appendConsole (b : Block) (c : Byte) :
    consoleHistory (appendConsole b c) = consoleHistory b ++ [c] := by
  simp [consoleHistory]

@[simp] theorem consoleHistory_tickBlock (b : Block) : consoleHistory (tickBlock b) = consoleHistory b := rfl

end Sys2Proof.Machine
end

