-- ==== Sys2Proof/Laws/PerInstr.lean ====
section
/-! SUPPORT. The family EncodesRow, one lemma per constructor: the key of the encoded transaction meets the condition
of its own row of spec/opcode_table.json. -/

namespace Sys2Proof.Laws.EncodesRow

/-- The row of the opcode table with the transaction's mnemonic admits the key of its encoding. -/
def Statement (i : Instr) : Prop :=
  i.wellFormed = true → (tableRows.find? (·.mnemonic == i.mnemonic)).any (·.admits (encode i).key) = true

/-- A row that looks at `op` alone admits every key with that `op`. -/
theorem admits_opMask (o : Op) {n : String} {r : Request} {p : BitVec 67} (hp : p = o.toBits ++ 0#64)
    (ho : r.op = o.toBits) : TableRow.admits ⟨n, p, opMask, none⟩ r.key = true := by
  simp [TableRow.admits, key_and_opMask, hp, ho]

/-- A row that looks at the whole key admits its pattern. -/
theorem admits_keyMask (o : Op) (a : Addr) {n : String} {r : Request} {p : BitVec 67} (hp : p = o.toBits ++ a)
    (ho : r.op = o.toBits) (ha : r.addr = a) : TableRow.admits ⟨n, p, keyMask, none⟩ r.key = true := by
  have hk : r.key = p := by rw [Request.key, ho, ha, hp]
  simp only [TableRow.admits, key_and_keyMask, beq_iff_eq, Bool.and_true]
  exact hk

theorem classify (addr : Addr) : Statement (.classify addr) := fun _ => admits_opMask .classify (by decide) rfl
theorem readMtime (wtag : Config.WidthTag) : Statement (.readMtime wtag) :=
  fun _ => admits_keyMask .read 0x0200_BFF8#64 (by decide) rfl rfl
theorem readMtimecmp (wtag : Config.WidthTag) : Statement (.readMtimecmp wtag) :=
  fun _ => admits_keyMask .read 0x0200_4000#64 (by decide) rfl rfl
theorem readMsip (wtag : Config.WidthTag) : Statement (.readMsip wtag) :=
  fun _ => admits_keyMask .read 0x0200_0000#64 (by decide) rfl rfl
theorem readOther (wtag : Config.WidthTag) (addr : Addr) : Statement (.readOther wtag addr) :=
  fun _ => admits_opMask .read (by decide) rfl
theorem writeConsole (wtag : Config.WidthTag) (value : Word) : Statement (.writeConsole wtag value) :=
  fun _ => admits_keyMask .write 0xFFF4#64 (by decide) rfl rfl
theorem writeUartOut (wtag : Config.WidthTag) (value : Word) : Statement (.writeUartOut wtag value) :=
  fun _ => admits_keyMask .write 0x2710#64 (by decide) rfl rfl
theorem writeUartOther (wtag : Config.WidthTag) (addr : Addr) (value : Word) :
    Statement (.writeUartOther wtag addr value) := by
  intro h
  have hr : 0x2710#64 < addr ∧ addr < 0x2790#64 := by
    simp only [Instr.wellFormed, uartOtherRange, Bool.and_eq_true, decide_eq_true_eq] at h
    exact h
  have hlo : 0x2711#64 ≤ addr := by
    have := hr.1
    bv_omega
  show TableRow.admits ⟨"WRITE.uart_other", 0x20000000000000000#67, opMask, some (0x2711#64, 0x2790#64)⟩ _ = true
  have hp : (encode (.writeUartOther wtag addr value)).op ++ 0#64 = 0x20000000000000000#67 := by
    show Op.write.toBits ++ 0#64 = _
    decide
  have ha : (encode (.writeUartOther wtag addr value)).addr = addr := rfl
  simp only [TableRow.admits, key_and_opMask, Request.key_addr, ha, hp, beq_self_eq_true, Bool.true_and,
    Bool.and_eq_true, decide_eq_true_eq]
  exact ⟨hlo, hr.2⟩
theorem writeMtime (wtag : Config.WidthTag) (value : Word) : Statement (.writeMtime wtag value) :=
  fun _ => admits_keyMask .write 0x0200_BFF8#64 (by decide) rfl rfl
theorem writeMtimecmp (wtag : Config.WidthTag) (value : Word) : Statement (.writeMtimecmp wtag value) :=
  fun _ => admits_keyMask .write 0x0200_4000#64 (by decide) rfl rfl
theorem writeMsip (wtag : Config.WidthTag) (value : Word) : Statement (.writeMsip wtag value) :=
  fun _ => admits_keyMask .write 0x0200_0000#64 (by decide) rfl rfl
theorem writeOther (wtag : Config.WidthTag) (addr : Addr) (value : Word) : Statement (.writeOther wtag addr value) :=
  fun _ => admits_opMask .write (by decide) rfl
theorem amo (addr : Addr) (wtag : Config.WidthTag) (kind : Config.AmoKind) (aq rl : Bool) (value : Word) :
    Statement (.amo addr wtag kind aq rl value) := fun _ => admits_opMask .amo (by decide) rfl
theorem drain : Statement .drain := fun _ => admits_opMask .drain (by decide) rfl
theorem readAll : Statement .readAll := fun _ => admits_opMask .readAll (by decide) rfl
theorem tick : Statement .tick := fun _ => admits_opMask .tick (by decide) rfl
theorem reserved : Statement .reserved := fun _ => admits_opMask .reserved (by decide) rfl

end Sys2Proof.Laws.EncodesRow
end

