-- ==== Sys2Proof/Laws/Step.lean ====
section
/-! SUPPORT. Everything a transaction and a step can do, said once: the block after a transaction, its response, and
the three cases of a step. -/

namespace Sys2Proof.Machine

/-- The block after a transaction that completes. -/
def blockAfter (b : Block) : Instr → Block
  | .writeConsole _ v => appendConsole b (consoleByte v)
  | .writeUartOut _ v => appendConsole b (consoleByte v)
  | .writeMtime _ v => { b with mtime := v }
  | .writeMtimecmp _ v => { b with mtimecmp := v }
  | .writeMsip _ v => { b with msip := v }
  | .drain => drainConsole b
  | .tick => tickBlock b
  | .classify _ | .readMtime _ | .readMtimecmp _ | .readMsip _ | .readOther _ _ => b
  | .writeUartOther _ _ _ | .writeOther _ _ _ | .amo _ _ _ _ _ _ | .readAll | .reserved => b

/-- The response of a transaction that completes; the RESERVED row has none, and the value here is never given. -/
def responseTo (b : Block) : Instr → Response
  | .classify a => .isIo (isIo a)
  | .readMtime _ => .result (.ok b.mtime)
  | .readMtimecmp _ => .result (.ok b.mtimecmp)
  | .readMsip _ => .result (.ok b.msip)
  | .readOther _ _ => .result (.ok Config.platform.sentinel)
  | .writeConsole _ _ | .writeUartOut _ _ | .writeUartOther _ _ _ => writeOk
  | .writeMtime _ _ | .writeMtimecmp _ _ | .writeMsip _ _ => writeOk
  | .writeOther _ _ _ | .amo _ _ _ _ _ _ | .reserved => .result .storeAmoAccessFault
  | .drain => .drainedBytes b.consolePending
  | .readAll => .fullBytes (consoleHistory b)
  | .tick => .interruptPending (timerFires b)

/-- Every transaction but the RESERVED row completes, with the block and the response above. -/
theorem exec_eq_complete {i : Instr} (h : i ≠ .reserved) (s : State) :
    exec i s = complete s (blockAfter s.block i) (responseTo s.block i) := by
  cases i <;> first | rfl | exact absurd rfl h

/-- A transaction that answers a next state is no RESERVED row, and the next state is this one. -/
theorem exec_cases {i : Instr} {s t : State} (h : exec i s = .next t) :
    i ≠ .reserved ∧
      t = { block := blockAfter s.block i, inputs := s.inputs, responses := s.responses ++ [responseTo s.block i] } := by
  by_cases hi : i = .reserved
  · subst hi
    cases h
  · rw [exec_eq_complete hi] at h
    exact ⟨hi, complete_eq_next h⟩

/-- A step that answers a next state is idle, a reset, or the transaction presented. -/
theorem step_cases {s t : State} (h : step s = .next t) :
    (s.inputs = [] ∧ t = s) ∨
      (∃ rest, s.inputs = .reset :: rest ∧ t = { State.reset with inputs := rest }) ∨
      (∃ r rest, s.inputs = .request r :: rest ∧ exec (decode r) { s with inputs := rest } = .next t) := by
  obtain ⟨hs, ht⟩ | ⟨i, rest, hs, ht⟩ := takeInput_cases s
  · simp only [step, ht, idle] at h
    cases h
    exact .inl ⟨hs, rfl⟩
  · cases i with
    | reset =>
      simp only [step, ht] at h
      cases h
      exact .inr (.inl ⟨rest, hs, rfl⟩)
    | request r =>
      simp only [step, ht] at h
      exact .inr (.inr ⟨r, rest, hs, h⟩)

/-- A presented request that is not `op = 111` completes. -/
theorem step_request {s : State} {r : Request} {rest : List Input} (h : s.inputs = .request r :: rest)
    (hr : r.op ≠ 0b111#3) :
    step s = .next
      { block := blockAfter s.block (decode r), inputs := rest,
        responses := s.responses ++ [responseTo s.block (decode r)] } := by
  have ht : takeInput s = some (.request r, { s with inputs := rest }) := by simp [takeInput, h]
  simp only [step, ht]
  rw [exec_eq_complete (decode_ne_reserved hr)]
  rfl

/-- A presented reset. -/
theorem step_reset {s : State} {rest : List Input} (h : s.inputs = .reset :: rest) :
    step s = .next { State.reset with inputs := rest } := by
  have ht : takeInput s = some (.reset, { s with inputs := rest }) := by simp [takeInput, h]
  simp only [step, ht]
  rfl

@[simp] theorem run_zero (s : State) : Host.Core.run Sys2Proof.core 0 s = .next s := rfl

/-- A run whose first step goes on is the run from there. -/
theorem run_succ {s t : State} (n : Nat) (h : step s = .next t) :
    Host.Core.run Sys2Proof.core (n + 1) s = Host.Core.run Sys2Proof.core n t := by
  have h' : Sys2Proof.core.step s = .next t := h
  simp only [Host.Core.run, h']

/-- A run whose first step is refused is refused. -/
theorem run_succ_refused {s : State} {r : Refusal} (n : Nat) (h : step s = .refused r) :
    Host.Core.run Sys2Proof.core (n + 1) s = .refused r := by
  have h' : Sys2Proof.core.step s = .refused r := h
  simp only [Host.Core.run, h']

/-- A run that goes on for `m` steps is, for `n` more, the run from there. -/
theorem run_add (m n : Nat) : ∀ {s t : State}, Host.Core.run Sys2Proof.core m s = .next t →
    Host.Core.run Sys2Proof.core (m + n) s = Host.Core.run Sys2Proof.core n t := by
  induction m with
  | zero =>
    intro s t h
    cases h
    rw [Nat.zero_add]
  | succ m ih =>
    intro s t h
    rw [Nat.succ_add]
    cases hs : step s with
    | next u =>
      rw [run_succ _ hs] at h ⊢
      exact ih h
    | fault r => cases r
    | refused r =>
      rw [run_succ_refused _ hs] at h
      cases h

end Sys2Proof.Machine
end

