-- ==== Sys2Proof/Machine/Text.lean ====
section
/-! DEFINITION. The text form of transactions (30_encoding.md R71): reading one line into a `Line`, which `assemble`
encodes. Numbers follow 00_scope.md R9 (`_` only groups digits). -/

namespace Sys2Proof.Machine

/-- A word of a line. -/
abbrev Token := List Char

/-- The words of a line, split at spaces and commas; `word` is the word being read, last character first. -/
def tokensFrom (word : List Char) : List Char → List Token
  | [] => if word.isEmpty then [] else [word.reverse]
  | c :: rest =>
    if c = ' ' ∨ c = ',' then
      if word.isEmpty then tokensFrom [] rest else word.reverse :: tokensFrom [] rest
    else tokensFrom (c :: word) rest

/-- The value of a hexadecimal or decimal digit. -/
def digitValue (c : Char) : Option Nat :=
  if '0' ≤ c ∧ c ≤ '9' then some (c.toNat - '0'.toNat)
  else if 'a' ≤ c ∧ c ≤ 'f' then some (c.toNat - 'a'.toNat + 10)
  else if 'A' ≤ c ∧ c ≤ 'F' then some (c.toNat - 'A'.toNat + 10)
  else none

/-- The number the digits write in a base, after the digits already read; `_` is skipped. -/
def numberFrom (base sofar : Nat) : List Char → Option Nat
  | [] => some sofar
  | c :: rest =>
    if c = '_' then numberFrom base sofar rest
    else
      match digitValue c with
      | some d => if d < base then numberFrom base (sofar * base + d) rest else none
      | none => none

/-- A number, hexadecimal `0x...` or decimal, with at least one digit in front (30_encoding.md R71). -/
def parseNumber : Token → Option Nat
  | '0' :: 'x' :: c :: rest => if c = '_' then none else numberFrom 16 0 (c :: rest)
  | c :: rest => if c = '_' then none else numberFrom 10 0 (c :: rest)
  | [] => none

/-- A number that fits a `u64` operand (00_scope.md R9). -/
def parseWord (t : Token) : Option Word :=
  match parseNumber t with
  | some n => if n < 2 ^ 64 then some (BitVec.ofNat 64 n) else none
  | none => none

/-- A one-bit operand written `<name>=0` or `<name>=1`. -/
def parseFlag (name : String) (t : Token) : Option Bool :=
  if t = name.toList ++ ['=', '0'] then some false
  else if t = name.toList ++ ['=', '1'] then some true
  else none

/-- A width tag: a number, or a name whose value the spec leaves open (92_eei_decisions.md D8; log entry 8). -/
def parseTag (t : Token) : Config.WidthTag := (parseNumber t).getD (Config.tagNamed t)

/-- The kind of an atomic operation: a number, or a name whose value the spec leaves open (D9; log entry 8). -/
def parseKind (t : Token) : Config.AmoKind := (parseNumber t).getD (Config.amoKindNamed t)

/-- The optional `w=<tag>` word that comes first among the operands, and the operands after it. -/
def takeTag : List Token → Option Config.WidthTag × List Token
  | [] => (none, [])
  | t :: rest =>
    match t with
    | 'w' :: '=' :: tag => (some (parseTag tag), rest)
    | _ => (none, t :: rest)

/-- The operands of a READ line. -/
def parseRead (args : List Token) : Option Line :=
  match takeTag args with
  | (w, [a]) => (parseWord a).map fun addr => .read w addr
  | _ => none

/-- The operands of a WRITE line. -/
def parseWrite (args : List Token) : Option Line :=
  match takeTag args with
  | (w, [a, v]) =>
    match parseWord a, parseWord v with
    | some addr, some value => some (.write w addr value)
    | _, _ => none
  | _ => none

/-- The operands of an AMO line. -/
def parseAmo (args : List Token) : Option Line :=
  match takeTag args with
  | (w, [a, k, q, l, v]) =>
    match parseWord a, parseFlag "aq" q, parseFlag "rl" l, parseWord v with
    | some addr, some aq, some rl, some value => some (.amo w addr (parseKind k) aq rl value)
    | _, _, _, _ => none
  | _ => none

/-- The transaction of the words of a line, less its binding. -/
def parseTransaction : List Token → Option Line
  | [] => none
  | name :: args =>
    if name = "classify".toList then
      match args with
      | [a] => (parseWord a).map .classify
      | _ => none
    else if name = "read".toList then parseRead args
    else if name = "write".toList then parseWrite args
    else if name = "amo".toList then parseAmo args
    else if args.isEmpty then
      if name = "drain".toList then some .drain
      else if name = "read_all".toList then some .readAll
      else if name = "tick".toList then some .tick
      else none
    else none

/-- The words before a binding `-> <name>`, which may end a line; none where the arrow is not followed by one word. -/
def withoutBinding : List Token → Option (List Token)
  | [] => some []
  | t :: rest =>
    if t = "->".toList then
      match rest with
      | [_] => some []
      | _ => none
    else (withoutBinding rest).map (t :: ·)

/-- The transaction line a text writes, if it writes one (30_encoding.md R71; log entry 25). -/
def parseLine (text : String) : Option Line := (withoutBinding (tokensFrom [] text.toList)).bind parseTransaction

end Sys2Proof.Machine
end

