-- ==== Sys2Proof/Tests/Slice0.lean ====
section
/-! SUPPORT. The model's own tests. Expected results are the vectors and examples of spec/95_test_vectors.md and of the
rules named beside each test; the witnesses meet the hypotheses of the statements in Certificates/Slice0. -/

namespace Sys2Proof.Tests

open Machine

/-- A state with nothing lined up and nothing answered, written as 95_test_vectors.md writes states. -/
def st (mtime mtimecmp msip : Word) (consumed pending : List Byte) (tip : Bool) : State :=
  { block :=
      { mtime := mtime, mtimecmp := mtimecmp, msip := msip, consoleConsumed := consumed, consolePending := pending,
        tip := tip },
    inputs := [], responses := [] }

/-- The reset state `S0` of 95_test_vectors.md. -/
def s0 : State := st 1 0 0 [] [] false

/-- The start state of section 2.2 of 95_test_vectors.md. -/
def s1 : State := st 0x1234 0x50 0x3 [0x41] [0x42] false

/-- The block after a transaction and its response, where it completes. -/
def after (i : Instr) (s : State) : Option (Block × List Response) :=
  match exec i s with
  | .next t => some (t.block, t.responses)
  | .fault _ => none
  | .refused _ => none

/-- The block after a stream of inputs and all its responses. -/
def runAll (is : List Input) (s : State) : Option (Block × List Response) :=
  match Host.Core.run Sys2Proof.core is.length { s with inputs := is } with
  | .next t => some (t.block, t.responses)
  | .fault _ => none
  | .refused _ => none

/-- A READ request, a WRITE request, a TICK request. -/
def rd (a : Addr) : Request := { op := 0b001, addr := a }
def wr (a : Addr) (v : Word) : Request := { op := 0b010, addr := a, value := v }
def tk : Request := { op := 0b110 }

/-! ## Well-formedness -/

/-- Each address condition refuses a term that breaks it, at its boundary values (30_encoding.md R65, R66). -/
theorem test_ill_formed_terms_are_refused :
    (Instr.readOther 0 0x0200_BFF8).wellFormed = false ∧ (Instr.readOther 0 0x0200_4000).wellFormed = false ∧
      (Instr.readOther 0 0x0200_0000).wellFormed = false ∧ (Instr.writeUartOther 0 0x2710 0).wellFormed = false ∧
      (Instr.writeUartOther 0 0x2790 0).wellFormed = false ∧ (Instr.writeOther 0 0xFFF4 0).wellFormed = false ∧
      (Instr.writeOther 0 0x2710 0).wellFormed = false ∧ (Instr.writeOther 0 0x278F 0).wellFormed = false ∧
      (Instr.writeOther 0 0x0200_BFF8 0).wellFormed = false ∧
      (Instr.writeOther 0 0x0200_4000 0).wellFormed = false ∧
      (Instr.writeOther 0 0x0200_0000 0).wellFormed = false := by decide

/-- The neighbours of those boundaries are well-formed. -/
theorem test_well_formed_terms_are_accepted :
    (Instr.readOther 0 0x0200_BFF9).wellFormed = true ∧ (Instr.writeUartOther 0 0x2711 0).wellFormed = true ∧
      (Instr.writeUartOther 0 0x278F 0).wellFormed = true ∧ (Instr.writeOther 0 0x2790 0).wellFormed = true ∧
      (Instr.writeOther 0 0xFFF5 0).wellFormed = true := by decide

/-! ## Decoding: keys written out from 95_test_vectors.md and opcode_table.json -/

theorem test_decode_classify : decodeTableWord 72 0x0_0000_0001_0200_BFF8 = some (.classify 0x1_0200_BFF8) := by decide
theorem test_decode_readMtime : decodeTableWord 72 0x1_0000_0000_0200_BFF8 = some (.readMtime 0) := by decide
theorem test_decode_readMtimecmp : decodeTableWord 72 0x1_0000_0000_0200_4000 = some (.readMtimecmp 0) := by decide
theorem test_decode_readMsip : decodeTableWord 72 0x1_0000_0000_0200_0000 = some (.readMsip 0) := by decide
theorem test_decode_readOther : decodeTableWord 72 0x1_0000_0000_0000_2750 = some (.readOther 0 0x2750) := by decide
theorem test_decode_writeConsole : decodeTableWord 72 0x2_0000_0000_0000_FFF4 = some (.writeConsole 0 0) := by decide
theorem test_decode_writeUartOut : decodeTableWord 72 0x2_0000_0000_0000_2710 = some (.writeUartOut 0 0) := by decide
theorem test_decode_writeUartOther :
    decodeTableWord 72 0x2_0000_0000_0000_2711 = some (.writeUartOther 0 0x2711 0) := by decide
theorem test_decode_writeMtime : decodeTableWord 72 0x2_0000_0000_0200_BFF8 = some (.writeMtime 0 0) := by decide
theorem test_decode_writeMtimecmp : decodeTableWord 72 0x2_0000_0000_0200_4000 = some (.writeMtimecmp 0 0) := by decide
theorem test_decode_writeMsip : decodeTableWord 72 0x2_0000_0000_0200_0000 = some (.writeMsip 0 0) := by decide
theorem test_decode_writeOther :
    decodeTableWord 72 0x2_0000_0000_0200_0008 = some (.writeOther 0 0x0200_0008 0) := by decide
theorem test_decode_amo :
    decodeTableWord 72 0x3_0000_0000_0000_2777 = some (.amo 0x2777 0 0 false false 0) := by decide
theorem test_decode_drain : decodeTableWord 72 0x4_0000_0000_0000_0000 = some .drain := by decide
theorem test_decode_readAll : decodeTableWord 72 0x5_0000_0000_0000_0000 = some .readAll := by decide
theorem test_decode_tick : decodeTableWord 72 0x6_0000_0000_0000_0000 = some .tick := by decide
theorem test_decode_reserved : decodeTableWord 72 0x7_0000_0000_0000_0000 = some .reserved := by decide

/-- A word with a bit above the key is no key and is refused (log entry 21). -/
theorem test_decode_refuses_a_word_that_is_no_key : decodeTableWord 72 0x8_0000_0000_0000_0000 = none := by decide

/-- The operands outside the key reach the transaction (30_encoding.md R60; the AMO example of 43_atomic.md R110). -/
theorem test_decode_amo_operands :
    decode { op := 0b011, addr := 0x0200_BFF8, wtag := 3, amoKind := 7, aq := true, rl := true, value := 1 } =
      .amo 0x0200_BFF8 3 7 true true 1 := by decide

/-- "`write 0x0200_4000, 5` is `op=010 addr=0x0000_0000_0200_4000 value=0x5`" (30_encoding.md R71). -/
theorem test_assemble_the_example_line :
    assemble (.write (some 2) 0x0200_4000 5) = { op := 0b010, addr := 0x0000_0000_0200_4000, wtag := 2, value := 0x5 } := by
  decide

/-- An omitted tag is some tag, and a line that omits it decodes to the row all the same (30_encoding.md R71). -/
theorem test_assemble_omitted_tag :
    ∃ w, decode (assemble (.read none 0x0200_BFF8)) = .readMtime w := ⟨Config.omittedTag, rfl⟩

/-- Lines of 30_encoding.md R71 and 95_test_vectors.md are read as the transactions they write. -/
theorem test_parse_lines :
    parseLine "classify 0x0200_BFFF" = some (.classify 0x0200_BFFF) ∧
      parseLine "read 0x0200_BFF8 -> t0" = some (.read none 0x0200_BFF8) ∧
      parseLine "read w=3 33603576" = some (.read (some 3) 0x0200_BFF8) ∧
      parseLine "write 0x0200_4000, 1000" = some (.write none 0x0200_4000 0x3E8) ∧
      parseLine "drain" = some .drain ∧ parseLine "read_all" = some .readAll ∧ parseLine "tick" = some .tick := by
  decide

theorem test_parse_amo_line :
    parseLine "amo 0x0200_4000, swap, aq=1, rl=0, 9" =
      some (.amo none 0x0200_4000 (Config.amoKindNamed "swap".toList) true false 9) := rfl

/-- What is no line of the text form is refused. -/
theorem test_parse_refuses :
    parseLine "halt" = none ∧ parseLine "read" = none ∧ parseLine "write 0xFFF4" = none ∧
      parseLine "read 0x1_0000_0000_0000_0000" = none ∧ parseLine "tick 5" = none := by decide

/-! ## The transactions (95_test_vectors.md sections 1 and 2) -/

/-- Section 2.1. -/
theorem test_classify_boundaries :
    [0x0000, 0x270F, 0x2790, 0xFFF3, 0xFFFC, 0x0200_0008, 0x0200_3FFF, 0x0200_4008, 0x0200_BFF7, 0x0200_C000,
        0xC000_0000, 0x1_0200_BFF8, 0xFFFF_FFFF_FFFF_FFFF].all (fun a => !isIo a) = true ∧
      [0x2710, 0x278F, 0xFFF4, 0xFFFB, 0x0200_0000, 0x0200_0007, 0x0200_4000, 0x0200_BFF8, 0x0200_BFFF].all isIo =
        true := by decide

theorem test_classify_answers :
    after (.classify 0x0200_BFFF) s1 = some (s1.block, [.isIo true]) ∧
      after (.classify 0x0200_C000) s1 = some (s1.block, [.isIo false]) := by decide

/-- Section 2.2. -/
theorem test_read_mtime : after (.readMtime 5) s1 = some (s1.block, [.result (.ok 0x1234)]) := by decide
theorem test_read_mtimecmp : after (.readMtimecmp 0) s1 = some (s1.block, [.result (.ok 0x50)]) := by decide
theorem test_read_msip : after (.readMsip 0) s1 = some (s1.block, [.result (.ok 0x3)]) := by decide

/-- Section 2.2: every other address, presented as requests. -/
theorem test_read_other :
    [0x0200_BFFC, 0x0200_4004, 0x0200_0001, 0xFFF4, 0x2710, 0x2750, 0x8000_0000].all
      (fun a => decide (after (decode (rd a)) s1 = some (s1.block, [.result (.ok 0xAAAA_AAAA_AAAA_AAAA)]))) = true := by
  decide

/-- Section 2.3. -/
theorem test_write_console_drops_high_bits :
    after (.writeConsole 0 0x141) s0 = some ({ s0.block with consolePending := [0x41] }, [.result (.ok 0)]) ∧
      after (.writeConsole 0 0xFFFF_FFFF_FFFF_FF00) s0 =
        some ({ s0.block with consolePending := [0x00] }, [.result (.ok 0)]) := by decide

/-- 42_write.md R102: both ports feed one buffer in write order. -/
theorem test_write_uart_out_interleaves :
    runAll [.request (wr 0xFFF4 0x48), .request (wr 0x2710 0x69)] s0 =
      some ({ s0.block with consolePending := [0x48, 0x69] }, [.result (.ok 0), .result (.ok 0)]) := by decide

/-- 42_write.md R103. -/
theorem test_write_uart_other : after (.writeUartOther 0 0x2714 0xFF) s0 = some (s0.block, [.result (.ok 0)]) := by decide

/-- Section 2.3: `mtime` may decrease. -/
theorem test_write_mtime :
    after (.writeMtime 0 0) s0 = some ({ s0.block with mtime := 0 }, [.result (.ok 0)]) := by decide

/-- Section 2.3: `tip` stays false until a TICK. -/
theorem test_write_mtimecmp :
    after (.writeMtimecmp 0 0xFFFF_FFFF_FFFF_FFFF) s0 =
      some ({ s0.block with mtimecmp := 0xFFFF_FFFF_FFFF_FFFF }, [.result (.ok 0)]) := by decide

/-- Section 2.3: all bits are kept. -/
theorem test_write_msip :
    after (.writeMsip 0 0x8000_0000_0000_0001) s0 =
      some ({ s0.block with msip := 0x8000_0000_0000_0001 }, [.result (.ok 0)]) := by decide

/-- Section 2.3: the faulting addresses, presented as requests. -/
theorem test_write_other_faults :
    [0x2790, 0xFFF5, 0xFFFB, 0x0200_BFFC, 0x0200_4004, 0x0200_4008, 0x0200_0004, 0x0200_0008, 0x8000_0000].all
      (fun a => decide (after (decode (wr a 1)) s1 = some (s1.block, [.result .storeAmoAccessFault]))) = true := by
  decide

/-- Section 2.4. -/
theorem test_amo_faults :
    after (.amo 0x0200_4000 0 1 true true 9) s0 = some (s0.block, [.result .storeAmoAccessFault]) ∧
      after (.amo 0xFFF4 0 1 false false 0x41) s0 = some (s0.block, [.result .storeAmoAccessFault]) := by decide

/-- Section 2.5. -/
theorem test_drain :
    after .drain (st 1 0 0 [0x41] [0x42, 0x43] false) =
        some ((st 1 0 0 [0x41, 0x42, 0x43] [] false).block, [.drainedBytes [0x42, 0x43]]) ∧
      after .drain s0 = some (s0.block, [.drainedBytes []]) := by decide

/-- Section 2.5. -/
theorem test_read_all :
    after .readAll (st 1 0 0 [0x41] [0x42, 0x43] false) =
      some ((st 1 0 0 [0x41] [0x42, 0x43] false).block, [.fullBytes [0x41, 0x42, 0x43]]) := by decide

/-- Section 2.6: before `(mtime, mtimecmp, tip)`, after `(mtime, mtimecmp, tip)`; the response is the new `tip`. -/
theorem test_tick_vectors :
    ([((1, 0, false), (2, 0, false)), ((5, 5, false), (6, 0, true)), ((5, 4, false), (6, 4, false)),
        ((5, 6, false), (6, 0, true)), ((6, 0, true), (7, 0, false)), ((0, 0, false), (1, 0, true)),
        ((0, 0x1234, false), (1, 0, true)),
        ((0xFFFF_FFFF_FFFF_FFFF, 0xFFFF_FFFF_FFFF_FFFF, false), (0, 0, true)),
        ((0xFFFF_FFFF_FFFF_FFFF, 0, false), (0, 0, false)),
        ((0x10, 0xFFFF_FFFF_FFFF_FFFF, false), (0x11, 0, true)),
        ((0x8000_0000_0000_0000, 0x7FFF_FFFF_FFFF_FFFF, false),
          (0x8000_0000_0000_0001, 0x7FFF_FFFF_FFFF_FFFF, false))] :
      List ((Word × Word × Bool) × (Word × Word × Bool))).all
        (fun v =>
          decide (after .tick (st v.1.1 v.1.2.1 9 [0x41] [0x42] v.1.2.2) =
            some ((st v.2.1 v.2.2.1 9 [0x41] [0x42] v.2.2.2).block, [.interruptPending v.2.2.2]))) = true := by decide

/-- `op = 111` is refused (30_encoding.md R63). -/
theorem test_reserved_is_refused : exec .reserved s0 = .refused .reservedOp := rfl

/-! ## Steps -/

/-- A word placed where the next request is taken is the first thing that runs after reset: a first TICK returns false
(95_test_vectors.md E6). -/
theorem test_placed_word_runs_first :
    (match step (State.reset.withFetchWord 72 0x6_0000_0000_0000_0000) with
      | .next t => decide (t = { st 2 0 0 [] [] false with responses := [.interruptPending false] })
      | .fault _ => false
      | .refused _ => false) = true := by decide

/-- A reset in mid-run discards the console history (70_reset_and_hazards.md R160). -/
theorem test_reset_in_mid_run : runAll [.reset] s1 = some (s0.block, []) := by decide

/-- With nothing presented a step changes nothing (log entry 2). -/
theorem test_idle_step : step s1 = .next s1 := rfl

/-- The duty H1 is a premise about the address, not a behaviour (70_reset_and_hazards.md R171). -/
theorem test_duty_h1 :
    keepsH1 (rd 0x8000_0000) = false ∧ keepsH1 (wr 0x0200_BFFC 1) = true ∧ keepsH1 tk = true := by decide

/-- The caller's primitives (00_scope.md R10). -/
theorem test_caller_routes :
    memRead 0x8000_0000 8 = none ∧ memWrite 0xFFF4 1 0x41 = some { op := 0b010, addr := 0xFFF4, wtag := 1, value := 0x41 } := by
  decide

/-- The fault's number is the open parameter, an `Ok` has none (60_exceptions.md R141). -/
theorem test_cause_number :
    causeNumber .storeAmoAccessFault = some Config.faultCode ∧ causeNumber (.ok 7) = none := ⟨rfl, rfl⟩

/-! ## Witnesses: states and operands that meet the hypotheses of the statements, together -/

/-- `ResetLeavesTheResetValues`, `ConsoleBufferIsReachedOnlyThroughItsPaths` (its reset clause). -/
theorem witness_reset_presented : ({ s1 with inputs := [.reset, .request tk] } : State).inputs = .reset :: [.request tk] := rfl

/-- `StepRunsTheDecodedTransaction`: a presented request, and an empty stream. -/
theorem witness_request_presented :
    ({ s0 with inputs := [.request tk] } : State).inputs = .request tk :: [] ∧ decode tk = .tick ∧ s0.inputs = [] := by
  decide

/-- `StepStopsOnlyAtTheReservedOp`: both clauses. -/
theorem witness_next_input :
    nextInputDefined { s0 with inputs := [.request tk] } = true ∧
      nextInputDefined { s0 with inputs := [.request { op := 0b111 }] } = false := by decide

/-- `DecodeOfEncodeIsTheTransaction`. -/
theorem witness_well_formed : (Instr.writeUartOther 1 0x278F 2).wellFormed = true := by decide

/-- `EveryRequestDecodesAndKeepsItsKey`, `DecoderFollowsTheOpcodeTable`: operations 0 and 3, and 3 to 7. -/
theorem witness_op_bounds :
    (0b000#3).toNat ≤ 3 ∧ (0b011#3).toNat ≤ 3 ∧ 3 ≤ (0b011#3).toNat ∧ 3 ≤ (0b111#3).toNat ∧
      ({ op := 0b011, addr := 1 } : Request).op = ({ op := 0b011, addr := 2 } : Request).op := by decide

/-- The row statements of READ: each register's address, and addresses of READ.other at the ends of the windows. -/
theorem witness_read_rows :
    (rd 0x0200_BFF8).op = 0b001 ∧ (rd 0x0200_BFF8).addr = 0x0200_BFF8 ∧ (rd 0x0200_4000).addr = 0x0200_4000 ∧
      (rd 0x0200_0000).addr = 0x0200_0000 ∧ (rd 0x0200_BFF9).addr ≠ 0x0200_BFF8 ∧
      (rd 0x0200_BFF9).addr ≠ 0x0200_4000 ∧ (rd 0x0200_BFF9).addr ≠ 0x0200_0000 := by decide

/-- The row statements of WRITE: each bound address, both ends of WRITE.uart_other and of the console-out window, and
an address of WRITE.other at each of its edges. -/
theorem witness_write_rows :
    (wr 0xFFF4 1).op = 0b010 ∧ (wr 0xFFF4 1).addr = 0xFFF4 ∧ (wr 0x2710 1).addr = 0x2710 ∧
      (0x2711 ≤ (wr 0x2711 1).addr ∧ (wr 0x2711 1).addr < 0x2790) ∧
      (0x2711 ≤ (wr 0x278F 1).addr ∧ (wr 0x278F 1).addr < 0x2790) ∧ (wr 0x2790 1).addr = 0x2790 ∧
      (0xFFF4 < (wr 0xFFF5 1).addr ∧ (wr 0xFFF5 1).addr < 0xFFFC) ∧
      (0xFFF4 < (wr 0xFFFB 1).addr ∧ (wr 0xFFFB 1).addr < 0xFFFC) ∧
      [0x270F, 0x2790, 0xFFF3, 0xFFF5, 0x0200_0008, 0x0200_4001, 0x0200_BFF9].all (fun a => !writeBound a) = true := by
  decide

/-- The row statements of the other operations and of the reserved one. -/
theorem witness_other_ops :
    ({ op := 0b000 } : Request).op = 0b000 ∧ ({ op := 0b011 } : Request).op = 0b011 ∧
      ({ op := 0b100 } : Request).op = 0b100 ∧ ({ op := 0b101 } : Request).op = 0b101 ∧ tk.op = 0b110 ∧
      ({ op := 0b111 } : Request).op = 0b111 := by decide

/-- `CountsOfClassifiedAndBoundAddresses`: a bound READ address, a bound WRITE address and
a classified one that WRITE does not bind. -/
theorem witness_bound_addresses :
    decode (rd 0x0200_4000) ≠ .readOther (rd 0x0200_4000).wtag (rd 0x0200_4000).addr ∧
      decode (wr 0x278F 1) ≠ .writeOther (wr 0x278F 1).wtag (wr 0x278F 1).addr (wr 0x278F 1).value ∧
      isIo 0xFFF5 = true ∧ decode (wr 0xFFF5 1) = .writeOther 0 0xFFF5 1 := by decide

/-- `ReadMtimecmpReturnsTheThreshold`: a TICK that fired, at equality. -/
theorem witness_fired_tick :
    (∃ t, exec .tick (st 5 5 0 [] [] false) = .next t) ∧
      (st 5 5 0 [] [] false).block.mtime ≤ (st 5 5 0 [] [] false).block.mtimecmp := ⟨⟨_, rfl⟩, by decide⟩

/-- `WriteUartOutAppendsTheLowByte`: its second clause. -/
theorem witness_two_console_writes :
    ∃ t u, exec (.writeConsole 0 0x48) s0 = .next t ∧ exec (.writeUartOut 0 0x69) t = .next u := ⟨_, _, rfl, rfl⟩

/-- `RegisterWriteThenReadRoundTrips`: a register address and a console address. -/
theorem witness_write_then_read :
    (({ s0 with inputs := [.request (wr 0x0200_4000 7), .request (rd 0x0200_4000)] } : State).inputs =
        .request (wr 0x0200_4000 7) :: .request (rd 0x0200_4000) :: [] ∧
      (wr 0x0200_4000 7).op = 0b010 ∧ (rd 0x0200_4000).op = 0b001 ∧
      (rd 0x0200_4000).addr = (wr 0x0200_4000 7).addr ∧ (wr 0x0200_4000 7).addr = 0x0200_4000) ∧
    ({ s0 with inputs := [.request (wr 0xFFF4 7), .request (rd 0xFFF4)] } : State).inputs =
        .request (wr 0xFFF4 7) :: .request (rd 0xFFF4) :: [] ∧
      (wr 0xFFF4 7).op = 0b010 ∧ (rd 0xFFF4).op = 0b001 ∧
      (rd 0xFFF4).addr = (wr 0xFFF4 7).addr ∧ (wr 0xFFF4 7).addr = 0xFFF4 := by decide

/-- The statements about every transaction that answers a next state (`OnlyUnboundWritesAndAmoFault`,
`OnlyDrainExtendsTheConsumedHalf`, `ConsoleBufferIsReachedOnlyThroughItsPaths`, `LatchHoldsTheLastTickFlag`,
`EachFieldHasOnlyItsNamedWriters`, `RepeatedTransactions`, `EveryTransactionCompletes`): one that faults, one that
drains, one that ticks, one that writes, one that reads. -/
theorem witness_completed_transactions :
    (∃ t, exec (decode (wr 0x2790 1)) s1 = .next t) ∧ (∃ t, exec .drain s1 = .next t) ∧ (∃ t, exec .tick s1 = .next t) ∧
      (∃ t, exec (.writeMsip 0 1) s1 = .next t) ∧ (∃ t, exec (.writeConsole 0 1) s1 = .next t) ∧
      (∃ t, exec (.writeUartOut 0 1) s1 = .next t) ∧ (∃ t, exec .readAll s1 = .next t) ∧
      (∃ t, exec (decode (rd 0x2710)) s1 = .next t) ∧ Instr.drain ≠ .reserved :=
  ⟨⟨_, rfl⟩, ⟨_, rfl⟩, ⟨_, rfl⟩, ⟨_, rfl⟩, ⟨_, rfl⟩, ⟨_, rfl⟩, ⟨_, rfl⟩, ⟨_, rfl⟩, by decide⟩

/-- `RepeatedTransactions`, third clause: a READ and the one response it adds. -/
theorem witness_read_response :
    ∃ t, exec (decode (rd 0x0200_BFF8)) s1 = .next t ∧ t.responses = s1.responses ++ [.result (.ok 0x1234)] := ⟨_, rfl, rfl⟩

/-- `DrainMovesThePendingBytes`, `ConsoleHalvesAreTheWriteHistory`: nothing pending, and something pending. -/
theorem witness_pending : s0.block.consolePending = [] ∧ s1.block.consolePending ≠ [] := by decide

/-- `ConsoleBufferIsReachedOnlyThroughItsPaths`: two states with the same registers and different console halves. -/
theorem witness_same_registers :
    s1.block.mtime = (st 0x1234 0x50 0x3 [] [] true).block.mtime ∧
      s1.block.mtimecmp = (st 0x1234 0x50 0x3 [] [] true).block.mtimecmp ∧
      s1.block.msip = (st 0x1234 0x50 0x3 [] [] true).block.msip := by decide

/-- `ConsoleHalvesAreTheWriteHistory`, `ReadAllAnswersEveryWrittenByte`: the stream of 95_test_vectors.md E3 with a
reset before it, and the bytes it appends. -/
theorem witness_stream :
    streamDefined [.request (wr 0xFFF4 0x60), .reset, .request (wr 0xFFF4 0x61), .request { op := 0b100 },
        .request (wr 0x2710 0x62), .request (wr 0xFFF4 0x63)] = true ∧
      bytesAppended [] [.request (wr 0xFFF4 0x60), .reset, .request (wr 0xFFF4 0x61), .request { op := 0b100 },
        .request (wr 0x2710 0x62), .request (wr 0xFFF4 0x63)] = [0x61, 0x62, 0x63] := by decide

/-- `TickHasTheTwoDocumentedOutcomes`: both sides of the comparison where they meet. -/
theorem witness_tick_outcomes :
    ((st 5 5 0 [] [] false).block.mtime.toNat + 1 < 2 ^ 64 ∧
        (st 5 5 0 [] [] false).block.mtimecmp.toNat ≥ (st 5 5 0 [] [] false).block.mtime.toNat) ∧
      (st 5 4 0 [] [] false).block.mtime.toNat + 1 < 2 ^ 64 ∧
      (st 5 4 0 [] [] false).block.mtimecmp.toNat < (st 5 4 0 [] [] false).block.mtime.toNat := by decide

/-- `WritesArmTheNextTickOnly`: its three orders of a WRITE and a TICK. -/
theorem witness_arming :
    (wr 0x0200_4000 5).op = 0b010 ∧ tk.op = 0b110 ∧ (wr 0x0200_4000 5).addr = 0x0200_4000 ∧
      (wr 0x0200_BFF8 5).addr = 0x0200_BFF8 ∧
      ({ s0 with inputs := [.request (wr 0x0200_4000 5), .request tk] } : State).inputs =
        .request (wr 0x0200_4000 5) :: .request tk :: [] ∧
      ({ s0 with inputs := [.request tk, .request (wr 0x0200_4000 5)] } : State).inputs =
        .request tk :: .request (wr 0x0200_4000 5) :: [] := by decide

/-- `TimerFiresOnceButTwiceAtTheWrap`: three TICKs from a firing state, and from the top value. -/
theorem witness_three_ticks :
    tk.op = 0b110 ∧
      ({ st 5 5 0 [] [] false with inputs := [.request tk, .request tk, .request tk] } : State).inputs =
        .request tk :: .request tk :: .request tk :: [] ∧
      (st 5 5 0 [] [] false).block.mtime.toNat ≤ (st 5 5 0 [] [] false).block.mtimecmp.toNat ∧
      (st (-1) (-1) 0 [] [] false).block.mtime.toNat ≤ (st (-1) (-1) 0 [] [] false).block.mtimecmp.toNat ∧
      (st (-1) (-1) 0 [] [] false).block.mtime.toNat = 2 ^ 64 - 1 := by decide

/-- `DisarmedTimerCountsWithoutFiring`, `FirstFireAfterResetIsAtTheWrap`: a stream of TICKs; the last TICK before the
wrap and the bound itself. -/
theorem witness_disarmed_ticks :
    (∀ r ∈ [tk, tk], r.op = 0b110) ∧
      ({ st 5 4 0 [] [] false with inputs := [tk, tk].map .request } : State).inputs = [tk, tk].map .request ∧
      (st 5 4 0 [] [] false).block.mtimecmp.toNat < (st 5 4 0 [] [] false).block.mtime.toNat ∧
      (st 5 4 0 [] [] false).block.mtime.toNat + [tk, tk].length ≤ 2 ^ 64 ∧
      (0xFFFF_FFFF_FFFF_FFFE#64).toNat + [tk, tk].length = 2 ^ 64 := by decide

/-- `WidthTagIsIgnored`: each register's address with its value. -/
theorem witness_register_values :
    (0x0200_BFF8 = (0x0200_BFF8 : Addr) ∧ (0x1234 : Word) = s1.block.mtime) ∧ (0x50 : Word) = s1.block.mtimecmp ∧
      (0x3 : Word) = s1.block.msip := by decide

/-- `IgnoredOperandsDoNotMatter`: two WRITEs with different tags, and two AMOs with nothing in common. -/
theorem witness_ignored_operands :
    ({ wr 0xFFF4 1 with wtag := 1 } : Request).addr = (wr 0xFFF4 1).addr ∧
      ({ op := 0b011, addr := 1, value := 2 } : Request).op = ({ op := 0b011, addr := 3, aq := true } : Request).op ∧
      ¬(0b011#3).toNat ≤ 2 := by decide

/-- `RejectedAddressesAreStillAnswered`: one past the `msip` window, for each operation. -/
theorem witness_rejected_address :
    isIo (rd 0x0200_0008).addr = false ∧ (rd 0x0200_0008).op = 0b001 ∧ (wr 0x0200_0008 1).op = 0b010 := by decide

/-- `UnderH1WritesFaultOnlyInsideRegisterWindows`: a faulting and an accepted address under H1. -/
theorem witness_h1 : keepsH1 (wr 0xFFFB 1) = true ∧ keepsH1 (wr 0x278F 1) = true ∧ (wr 0xFFFB 1).op = 0b010 := by decide

/-- `CallerRoutesThroughTheClassifier`: an accepted and a rejected address. -/
theorem witness_caller : isIo 0x278F = true ∧ isIo 0x2790 = false := by decide

/-- `RegistersFollowTheTransactionStream`: a stream of transactions with TICKs, and one without. -/
theorem witness_register_stream :
    (∀ r ∈ [wr 0x0200_BFF8 9, tk, wr 0x0200_0000 4], encodesTransaction r = true) ∧
      (∀ r ∈ [wr 0x0200_4000 9, rd 0x0200_4000], isTick r = false) ∧
      mtimeAfter 1 [wr 0x0200_BFF8 9, tk, wr 0x0200_0000 4] = 10 ∧
      lastWritten 0x0200_0000 0 [wr 0x0200_BFF8 9, tk, wr 0x0200_0000 4] = 4 := by decide

/-- `StepKeepsInterfaceConsistent`: a consistent state that has drained, ticked and answered a snapshot, and its step. -/
theorem witness_consistent :
    InterfaceConsistent
        { st 6 0 0 [0x41] [0x42] true with
          inputs := [.request tk]
          responses := [.drainedBytes [0x41], .fullBytes [0x41], .interruptPending true] } ∧
      ∃ t, step
        { st 6 0 0 [0x41] [0x42] true with
          inputs := [.request tk]
          responses := [.drainedBytes [0x41], .fullBytes [0x41], .interruptPending true] } = .next t := by
  refine ⟨⟨by decide, by decide, ?_⟩, ⟨_, rfl⟩⟩
  intro bytes h
  have h' : bytes = [0x41] := by simpa using h
  rw [h']
  exact ⟨[0x42], rfl⟩

end Sys2Proof.Tests
end

section
/-! PROOF. The consumed half of the console buffer: which transaction writes it, and how (10_state.md R24). -/

namespace Sys2Proof.Machine

/-- DRAIN puts the pending bytes behind the ones consumed before (44_console.md R120). -/
theorem blockAfter_drain_consoleConsumed (b : Block) :
    (blockAfter b .drain).consoleConsumed = b.consoleConsumed ++ b.consolePending :=
  drainConsole_consoleConsumed b

/-- The frame of every other transaction: the appending WRITEs touch the pending half alone, a register WRITE one
register, TICK the timer fields, and the rest leave the block as it is. -/
theorem blockAfter_consoleConsumed_of_ne_drain {i : Instr} (h : i ≠ .drain) (b : Block) :
    (blockAfter b i).consoleConsumed = b.consoleConsumed := by
  cases i with
  | drain => exact absurd rfl h
  | writeConsole _ v => exact appendConsole_consoleConsumed b (consoleByte v)
  | writeUartOut _ v => exact appendConsole_consoleConsumed b (consoleByte v)
  | tick => exact tickBlock_consoleConsumed b
  | writeMtime | writeMtimecmp | writeMsip => rfl
  | classify | readMtime | readMtimecmp | readMsip | readOther | readAll => rfl
  | writeUartOther | writeOther | amo | reserved => rfl

/-- Settles O32: the block of the next state is `blockAfter`, of which the two lemmas above speak. -/
theorem onlyDrainExtendsTheConsumedHalf : Obligations.OnlyDrainExtendsTheConsumedHalf := by
  intro i s t h
  obtain ⟨-, rfl⟩ := exec_cases h
  constructor
  · intro hi
    exact blockAfter_consoleConsumed_of_ne_drain hi s.block
  · rintro rfl
    exact blockAfter_drain_consoleConsumed s.block

end Sys2Proof.Machine
end

section
/-! PROOF. The width tag: it passes through decoding into the transaction and no meaning reads it (20_memory.md R46). -/

namespace Sys2Proof

/-- The transaction with another width tag; formats without a tag are left as they are. -/
def Instr.withTag (w : Config.WidthTag) : Instr → Instr
  | .readMtime _ => .readMtime w
  | .readMtimecmp _ => .readMtimecmp w
  | .readMsip _ => .readMsip w
  | .readOther _ a => .readOther w a
  | .writeConsole _ v => .writeConsole w v
  | .writeUartOut _ v => .writeUartOut w v
  | .writeUartOther _ a v => .writeUartOther w a v
  | .writeMtime _ v => .writeMtime w v
  | .writeMtimecmp _ v => .writeMtimecmp w v
  | .writeMsip _ v => .writeMsip w v
  | .writeOther _ a v => .writeOther w a v
  | .amo a _ k aq rl v => .amo a w k aq rl v
  | .classify a => .classify a
  | .drain => .drain
  | .readAll => .readAll
  | .tick => .tick
  | .reserved => .reserved

theorem decodeRead_wtag (r : Request) (w : Config.WidthTag) :
    decodeRead { r with wtag := w } = (decodeRead r).withTag w := by
  unfold decodeRead
  split_ifs <;> rfl

theorem decodeWrite_wtag (r : Request) (w : Config.WidthTag) :
    decodeWrite { r with wtag := w } = (decodeWrite r).withTag w := by
  unfold decodeWrite
  split_ifs <;> rfl

/-- Decoding picks the row without the tag and only hands it on. -/
theorem decode_wtag (r : Request) (w : Config.WidthTag) : decode { r with wtag := w } = (decode r).withTag w := by
  unfold decode
  cases Op.ofBits r.op with
  | read => exact decodeRead_wtag r w
  | write => exact decodeWrite_wtag r w
  | classify | amo | drain | readAll | tick | reserved => rfl

theorem decode_read_mtime (w : Config.WidthTag) :
    decode { op := 0b001#3, addr := 0x0200_BFF8#64, wtag := w } = .readMtime w := by
  simp [decode_read, decodeRead]

theorem decode_read_mtimecmp (w : Config.WidthTag) :
    decode { op := 0b001#3, addr := 0x0200_4000#64, wtag := w } = .readMtimecmp w := by
  simp [decode_read, decodeRead]

theorem decode_read_msip (w : Config.WidthTag) :
    decode { op := 0b001#3, addr := 0x0200_0000#64, wtag := w } = .readMsip w := by
  simp [decode_read, decodeRead]

theorem decode_write_mtime (w : Config.WidthTag) (v : Word) :
    decode { op := 0b010#3, addr := 0x0200_BFF8#64, wtag := w, value := v } = .writeMtime w v := by
  simp [decode_write, decodeWrite]

theorem decode_write_mtimecmp (w : Config.WidthTag) (v : Word) :
    decode { op := 0b010#3, addr := 0x0200_4000#64, wtag := w, value := v } = .writeMtimecmp w v := by
  simp [decode_write, decodeWrite]

theorem decode_write_msip (w : Config.WidthTag) (v : Word) :
    decode { op := 0b010#3, addr := 0x0200_0000#64, wtag := w, value := v } = .writeMsip w v := by
  simp [decode_write, decodeWrite]

end Sys2Proof

namespace Sys2Proof.Machine

/-- No meaning reads the tag. -/
theorem exec_withTag (w : Config.WidthTag) (i : Instr) (s : State) : exec (i.withTag w) s = exec i s := by
  cases i with
  | readMtime | readMtimecmp | readMsip | readOther => rfl
  | writeConsole | writeUartOut | writeUartOther | writeMtime | writeMtimecmp | writeMsip | writeOther => rfl
  | amo | classify | drain | readAll | tick | reserved => rfl

/-- Settles O46: the tag only passes through decoding, no meaning reads it, and each register's row moves the whole
64-bit value. -/
theorem widthTagIsIgnored : Obligations.WidthTagIsIgnored := by
  refine ⟨fun r w s => ?_, fun a w s v h => ?_, fun a w s v => ?_⟩
  · rw [decode_wtag, exec_withTag]
  · obtain ⟨rfl, rfl⟩ | ⟨rfl, rfl⟩ | ⟨rfl, rfl⟩ := h
    · rw [decode_read_mtime]
      rfl
    · rw [decode_read_mtimecmp]
      rfl
    · rw [decode_read_msip]
      rfl
  · have hne : decode { op := 0b010#3, addr := a, wtag := w, value := v } ≠ .reserved :=
      decode_ne_reserved (show 0b010#3 ≠ 0b111#3 by decide)
    refine ⟨_, exec_eq_complete hne s, ?_, ?_, ?_⟩
    · rintro rfl
      rw [decode_write_mtime]
      rfl
    · rintro rfl
      rw [decode_write_mtimecmp]
      rfl
    · rintro rfl
      rw [decode_write_msip]
      rfl

end Sys2Proof.Machine
end

section
/-! PROOF. The decoder and the opcode table: the addresses of the two row lists written out, and the rows of the table
as conditions on a request's `op` and address (30_encoding.md R64 to R66). -/

namespace Sys2Proof

/-- Past UART offset 0 means from offset 1 on (30_encoding.md R66 row 3). -/
theorem uartOut_lt_iff (a : Addr) : 0x2710#64 < a ↔ 0x2711#64 ≤ a := by bv_omega

/-- The list of READ rows with the addresses of 30_encoding.md R65. -/
theorem decodeRead_eq (r : Request) :
    decodeRead r =
      if r.addr = 0x0200_BFF8#64 then .readMtime r.wtag
      else if r.addr = 0x0200_4000#64 then .readMtimecmp r.wtag
      else if r.addr = 0x0200_0000#64 then .readMsip r.wtag
      else .readOther r.wtag r.addr := by
  simp only [decodeRead, mtimeAddr_eq, mtimecmpAddr_eq, msipAddr_eq]

/-- The list of WRITE rows with the addresses of 30_encoding.md R66. -/
theorem decodeWrite_eq (r : Request) :
    decodeWrite r =
      if r.addr = 0xFFF4#64 then .writeConsole r.wtag r.value
      else if r.addr = 0x2710#64 then .writeUartOut r.wtag r.value
      else if 0x2711#64 ≤ r.addr ∧ r.addr < 0x2790#64 then .writeUartOther r.wtag r.addr r.value
      else if r.addr = 0x0200_BFF8#64 then .writeMtime r.wtag r.value
      else if r.addr = 0x0200_4000#64 then .writeMtimecmp r.wtag r.value
      else if r.addr = 0x0200_0000#64 then .writeMsip r.wtag r.value
      else .writeOther r.wtag r.addr r.value := by
  simp only [decodeWrite, consoleOutAddr_eq, uartOutAddr_eq, uart_base_eq, uart_limit_eq, uartOut_lt_iff, mtimeAddr_eq,
    mtimecmpAddr_eq, msipAddr_eq]

/-- The range of WRITE.uart_other holds none of the addresses before it in the list. -/
theorem decodeWrite_of_uartOtherRange {r : Request} (h : 0x2711#64 ≤ r.addr ∧ r.addr < 0x2790#64) :
    decodeWrite r = .writeUartOther r.wtag r.addr r.value := by
  obtain ⟨hlo, hhi⟩ := h
  have hconsole : r.addr ≠ 0xFFF4#64 := by bv_omega
  have huart : r.addr ≠ 0x2710#64 := by bv_omega
  rw [decodeWrite_eq, if_neg hconsole, if_neg huart, if_pos ⟨hlo, hhi⟩]

/-- Settles O8: `op` picks the list, and the list with its addresses written out is the one of the spec. -/
theorem addressPicksTheReadAndWriteRow : Obligations.AddressPicksTheReadAndWriteRow :=
  ⟨fun r h => (decode_read h).trans (decodeRead_eq r), fun r h => (decode_write h).trans (decodeWrite_eq r)⟩

/-! ## The rows of the table as conditions on `op` and address -/

/-- A row that looks at `op` alone. -/
def opRow (n : String) (op : BitVec 3) : TableRow := { mnemonic := n, pattern := op ++ 0#64, mask := opMask }

/-- A row that looks at `op` and one address. -/
def addrRow (n : String) (op : BitVec 3) (a : Addr) : TableRow := { mnemonic := n, pattern := op ++ a, mask := keyMask }

/-- A row that looks at `op` and an address range. -/
def rangeRow (n : String) (op : BitVec 3) (lo hi : Addr) : TableRow := { opRow n op with range := some (lo, hi) }

@[simp] theorem opRow_mnemonic (n : String) (op : BitVec 3) : (opRow n op).mnemonic = n := rfl
@[simp] theorem addrRow_mnemonic (n : String) (op : BitVec 3) (a : Addr) : (addrRow n op a).mnemonic = n := rfl
@[simp] theorem rangeRow_mnemonic (n : String) (op : BitVec 3) (lo hi : Addr) : (rangeRow n op lo hi).mnemonic = n := rfl

/-- A key has one `op` and one address. -/
theorem Request.key_eq_append_iff (r : Request) (op : BitVec 3) (a : Addr) :
    r.key = op ++ a ↔ r.op = op ∧ r.addr = a := by
  constructor
  · intro h
    have hk : r.key = ({ op, addr := a } : Request).key := h
    exact ⟨by rw [← r.key_op, hk, Request.key_op], by rw [← r.key_addr, hk, Request.key_addr]⟩
  · rintro ⟨rfl, rfl⟩
    rfl

theorem Request.key_and_opMask_eq_iff (r : Request) (op : BitVec 3) : r.key &&& opMask = op ++ 0#64 ↔ r.op = op := by
  have h := Request.key_eq_append_iff { op := r.op, addr := 0#64 } op 0#64
  rw [key_and_opMask]
  exact h.trans (and_iff_left rfl)

@[simp] theorem opRow_admits (n : String) (op : BitVec 3) (r : Request) :
    (opRow n op).admits r.key = decide (r.op = op) := by
  rw [Bool.eq_iff_iff]
  simp only [TableRow.admits, opRow, Bool.and_true, beq_iff_eq, decide_eq_true_eq]
  exact r.key_and_opMask_eq_iff op

@[simp] theorem addrRow_admits (n : String) (op : BitVec 3) (a : Addr) (r : Request) :
    (addrRow n op a).admits r.key = decide (r.op = op ∧ r.addr = a) := by
  rw [Bool.eq_iff_iff]
  simp only [TableRow.admits, addrRow, key_and_keyMask, Bool.and_true, beq_iff_eq, decide_eq_true_eq]
  exact r.key_eq_append_iff op a

@[simp] theorem rangeRow_admits (n : String) (op : BitVec 3) (lo hi : Addr) (r : Request) :
    (rangeRow n op lo hi).admits r.key = decide (r.op = op ∧ lo ≤ r.addr ∧ r.addr < hi) := by
  rw [Bool.eq_iff_iff]
  simp only [TableRow.admits, rangeRow, opRow, Request.key_addr, Bool.and_eq_true, beq_iff_eq, decide_eq_true_eq]
  exact and_congr_left' (r.key_and_opMask_eq_iff op)

/-- The rows before the catch-all of READ and of WRITE. -/
theorem boundRows_eq :
    boundRows =
      [addrRow "READ.mtime" 0b001#3 0x0200_BFF8#64, addrRow "READ.mtimecmp" 0b001#3 0x0200_4000#64,
        addrRow "READ.msip" 0b001#3 0x0200_0000#64, addrRow "WRITE.console" 0b010#3 0xFFF4#64,
        addrRow "WRITE.uart_out" 0b010#3 0x2710#64, rangeRow "WRITE.uart_other" 0b010#3 0x2711#64 0x2790#64,
        addrRow "WRITE.mtime" 0b010#3 0x0200_BFF8#64, addrRow "WRITE.mtimecmp" 0b010#3 0x0200_4000#64,
        addrRow "WRITE.msip" 0b010#3 0x0200_0000#64] := by
  decide

/-- The table: each operation's row, with the bound rows of READ and WRITE before their catch-alls. -/
theorem tableRows_eq :
    tableRows =
      opRow "CLASSIFY" 0b000#3 :: boundRows.take 3 ++ opRow "READ.other" 0b001#3 :: boundRows.drop 3 ++
        [opRow "WRITE.other" 0b010#3, opRow "AMO" 0b011#3, opRow "DRAIN" 0b100#3, opRow "READ_ALL" 0b101#3,
          opRow "TICK" 0b110#3, opRow "RESERVED" 0b111#3] := by
  decide

/-! ## The first row that admits the key -/

theorem find?_tableRows_read {r : Request} (h : r.op = 0b001#3) :
    (tableRows.find? (·.admits r.key)).map (·.mnemonic) = some (decodeRead r).mnemonic := by
  rw [decodeRead_eq]
  split_ifs <;> simp [tableRows_eq, boundRows_eq, Instr.mnemonic, *]

theorem find?_tableRows_write {r : Request} (h : r.op = 0b010#3) :
    (tableRows.find? (·.admits r.key)).map (·.mnemonic) = some (decodeWrite r).mnemonic := by
  rw [decodeWrite_eq]
  split_ifs <;> simp [tableRows_eq, boundRows_eq, Instr.mnemonic, *]

/-- The first row of the table that admits a request's key is the row of the decoded transaction. -/
theorem find?_tableRows_mnemonic (r : Request) :
    (tableRows.find? (·.admits r.key)).map (·.mnemonic) = some (decode r).mnemonic := by
  rcases op_cases r.op with h | h | h | h | h | h | h | h
  · simp [decode_classify h, tableRows_eq, boundRows_eq, Instr.mnemonic, h]
  · rw [decode_read h, find?_tableRows_read h]
  · rw [decode_write h, find?_tableRows_write h]
  · simp [decode_amo h, tableRows_eq, boundRows_eq, Instr.mnemonic, h]
  · simp [decode_drain h, tableRows_eq, boundRows_eq, Instr.mnemonic, h]
  · simp [decode_readAll h, tableRows_eq, boundRows_eq, Instr.mnemonic, h]
  · simp [decode_tick h, tableRows_eq, boundRows_eq, Instr.mnemonic, h]
  · simp [decode_reserved h, tableRows_eq, boundRows_eq, Instr.mnemonic, h]

/-! ## No key is admitted by two bound rows -/

/-- Every key is the key of a request. -/
theorem Request.key_ofKey (k : BitVec 67) : (Request.ofKey k).key = k := by
  apply BitVec.eq_of_toNat_eq
  have hk := k.isLt
  simp only [Request.key_toNat, Request.ofKey, BitVec.extractLsb'_toNat, Nat.shiftRight_eq_div_pow]
  omega

/-- A bound row admits only requests that decode to its transaction, so the key tells which bound row it can be. -/
theorem mnemonic_eq_of_boundRow_admits {row : TableRow} {r : Request} (hrow : row ∈ boundRows)
    (h : row.admits r.key = true) : row.mnemonic = (decode r).mnemonic := by
  simp only [boundRows_eq, List.mem_cons, List.not_mem_nil, or_false] at hrow
  rcases hrow with rfl | rfl | rfl | rfl | rfl | rfl | rfl | rfl | rfl
  all_goals simp only [addrRow_admits, rangeRow_admits, decide_eq_true_eq] at h
  all_goals obtain ⟨hop, ha⟩ := h
  pick_goal 6
  · rw [decode_write hop, decodeWrite_of_uartOtherRange ha]
    rfl
  all_goals simp [decode_read, decode_write, decodeRead_eq, decodeWrite_eq, hop, ha, Instr.mnemonic]

/-- A list of rows with different mnemonics holds at most one row of each choice that fixes the mnemonic. -/
theorem length_filter_le_one_of_mnemonic {rows : List TableRow} {p : TableRow → Bool} {n : String}
    (hnodup : (rows.map (·.mnemonic)).Nodup) (hp : ∀ row ∈ rows, p row = true → row.mnemonic = n) :
    (rows.filter p).length ≤ 1 := by
  have hsub : ((rows.filter p).map (·.mnemonic)).Nodup := hnodup.sublist (List.filter_sublist.map _)
  have hrep : (rows.filter p).map (·.mnemonic) = List.replicate (rows.filter p).length n :=
    List.eq_replicate_iff.2 ⟨List.length_map _, List.forall_mem_map.2 fun row hrow =>
      hp row (List.mem_of_mem_filter hrow) (List.of_mem_filter hrow)⟩
  rwa [hrep, List.nodup_replicate] at hsub

theorem length_filter_boundRows_le_one (k : BitVec 67) : (boundRows.filter (·.admits k)).length ≤ 1 := by
  rw [← Request.key_ofKey k]
  exact length_filter_le_one_of_mnemonic (by decide) fun _ hrow h => mnemonic_eq_of_boundRow_admits hrow h

/-! ## Formats N and A -/

/-- From `op = 011` on, `op` alone fixes the row (30_encoding.md R62, R63). -/
theorem decode_mnemonic_eq_of_op_eq {r r' : Request} (hop : r.op = r'.op) (h : 3 ≤ r.op.toNat) :
    (decode r).mnemonic = (decode r').mnemonic := by
  rcases op_cases r.op with h' | h' | h' | h' | h' | h' | h' | h'
  · simp [h'] at h
  · simp [h'] at h
  · simp [h'] at h
  · rw [decode_amo h', decode_amo (hop ▸ h')]
    rfl
  · rw [decode_drain h', decode_drain (hop ▸ h')]
  · rw [decode_readAll h', decode_readAll (hop ▸ h')]
  · rw [decode_tick h', decode_tick (hop ▸ h')]
  · rw [decode_reserved h', decode_reserved (hop ▸ h')]

/-- Settles O7: every row is a condition on `op` and address, and the decoder tests these in the table's order. -/
theorem decoderFollowsTheOpcodeTable : Obligations.DecoderFollowsTheOpcodeTable :=
  ⟨Request.key_toNat, find?_tableRows_mnemonic, length_filter_boundRows_le_one,
    fun _ _ hop h => decode_mnemonic_eq_of_op_eq hop h⟩

end Sys2Proof
end

section
/-! PROOF. CLASSIFY: the walk of the window table, whose answer no field of the state enters (40_classifier.md
R80, R81). -/

namespace Sys2Proof.Machine

/-- CLASSIFY keeps the block and the inputs, and answers the combinational classifier. -/
theorem exec_classify (a : Addr) (s : State) :
    exec (.classify a) s = .next { s with responses := s.responses ++ [.isIo (isIo a)] } :=
  exec_eq_complete (i := .classify a) nofun s

/-- Settles O11: the answer is `isIo` of the address, and `isIo_iff` reads the walk of the table as the five windows. -/
theorem classifyAnswersTheFiveWindows : Obligations.ClassifyAnswersTheFiveWindows := by
  intro r s hop
  constructor
  · exact decode_classify hop
  · simp only [exec_classify, ← isIo_iff, Bool.decide_eq_true]

end Sys2Proof.Machine
end

section
/-! PROOF. READ: the address picks one of four rows, and each answers a value and keeps the block and the inputs
(41_read.md R90 to R93). -/

namespace Sys2Proof

/-- A READ is one of the four rows of 30_encoding.md R65. -/
theorem decodeRead_rows (r : Request) :
    decodeRead r = .readMtime r.wtag ∨ decodeRead r = .readMtimecmp r.wtag ∨ decodeRead r = .readMsip r.wtag ∨
      decodeRead r = .readOther r.wtag r.addr := by
  rw [decodeRead_eq]
  split_ifs with hmtime hmtimecmp hmsip
  · exact .inl rfl
  · exact .inr (.inl rfl)
  · exact .inr (.inr (.inl rfl))
  · exact .inr (.inr (.inr rfl))

theorem decode_eq_readMtime {r : Request} (hop : r.op = 0b001#3) (ha : r.addr = 0x0200_BFF8#64) :
    decode r = .readMtime r.wtag := by
  rw [decode_read hop, decodeRead_eq, if_pos ha]

theorem decode_eq_readMtimecmp {r : Request} (hop : r.op = 0b001#3) (ha : r.addr = 0x0200_4000#64) :
    decode r = .readMtimecmp r.wtag := by
  simp [decode_read hop, decodeRead_eq, ha]

theorem decode_eq_readMsip {r : Request} (hop : r.op = 0b001#3) (ha : r.addr = 0x0200_0000#64) :
    decode r = .readMsip r.wtag := by
  simp [decode_read hop, decodeRead_eq, ha]

end Sys2Proof

namespace Sys2Proof.Machine

theorem exec_readMtime (w : Config.WidthTag) (s : State) :
    exec (.readMtime w) s = .next { s with responses := s.responses ++ [.result (.ok s.block.mtime)] } :=
  exec_eq_complete (i := .readMtime w) nofun s

theorem exec_readMtimecmp (w : Config.WidthTag) (s : State) :
    exec (.readMtimecmp w) s = .next { s with responses := s.responses ++ [.result (.ok s.block.mtimecmp)] } :=
  exec_eq_complete (i := .readMtimecmp w) nofun s

theorem exec_readMsip (w : Config.WidthTag) (s : State) :
    exec (.readMsip w) s = .next { s with responses := s.responses ++ [.result (.ok s.block.msip)] } :=
  exec_eq_complete (i := .readMsip w) nofun s

theorem exec_readOther (w : Config.WidthTag) (a : Addr) (s : State) :
    exec (.readOther w a) s = .next { s with responses := s.responses ++ [.result (.ok Config.platform.sentinel)] } :=
  exec_eq_complete (i := .readOther w a) nofun s

/-- Settles O18: the four rows are the cases of the decoder, and each completes with `Ok` of its own value. -/
theorem everyReadAnswersOkAndChangesNothing : Obligations.EveryReadAnswersOkAndChangesNothing := by
  intro r s hop
  rw [decode_read hop]
  have hrows := decodeRead_rows r
  refine ⟨hrows, ?_⟩
  obtain h | h | h | h := hrows <;> rw [h]
  · exact ⟨_, exec_readMtime r.wtag s⟩
  · exact ⟨_, exec_readMtimecmp r.wtag s⟩
  · exact ⟨_, exec_readMsip r.wtag s⟩
  · exact ⟨_, exec_readOther r.wtag r.addr s⟩

/-- Settles O14: the row of the address, and what it answers in every state, reset included. -/
theorem readMtimeReturnsTheCounter : Obligations.ReadMtimeReturnsTheCounter :=
  ⟨fun r s hop ha => ⟨decode_eq_readMtime hop ha, exec_readMtime r.wtag s⟩, fun w => exec_readMtime w State.reset⟩

/-- A TICK that fires clears the threshold (45_timer.md R130). -/
theorem mtimecmp_eq_zero_of_tick_fires {s t : State} (h : exec .tick s = .next t)
    (hfires : s.block.mtime ≤ s.block.mtimecmp) : t.block.mtimecmp = 0 := by
  obtain ⟨-, rfl⟩ := exec_cases h
  calc (tickBlock s.block).mtimecmp
    _ = if timerFires s.block then 0 else s.block.mtimecmp := tickBlock_mtimecmp s.block
    _ = 0 := if_pos ((timerFires_iff s.block).2 hfires)

/-- Settles O15: the row of the address answers the threshold in every state, and a TICK that fired has cleared it. -/
theorem readMtimecmpReturnsTheThreshold : Obligations.ReadMtimecmpReturnsTheThreshold := by
  constructor
  · intro r s hop ha
    exact ⟨decode_eq_readMtimecmp hop ha, exec_readMtimecmp r.wtag s⟩
  · intro w s t htick hfires
    rw [exec_readMtimecmp, mtimecmp_eq_zero_of_tick_fires htick hfires]

/-- Settles O16: the row of the address, and what it answers in every state. -/
theorem readMsipReturnsTheWord : Obligations.ReadMsipReturnsTheWord :=
  fun r s hop ha => ⟨decode_eq_readMsip hop ha, exec_readMsip r.wtag s⟩

end Sys2Proof.Machine
end

section
/-! PROOF. WRITE to the console ports, to the rest of the UART block and to an address no row binds (42_write.md R101,
R102, R103, R107). -/

namespace Sys2Proof

theorem decode_eq_writeConsole {r : Request} (hop : r.op = 0b010#3) (ha : r.addr = 0xFFF4#64) :
    decode r = .writeConsole r.wtag r.value := by
  rw [decode_write hop, decodeWrite_eq, if_pos ha]

theorem decode_eq_writeUartOut {r : Request} (hop : r.op = 0b010#3) (ha : r.addr = 0x2710#64) :
    decode r = .writeUartOut r.wtag r.value := by
  simp [decode_write hop, decodeWrite_eq, ha]

theorem decode_eq_writeUartOther {r : Request} (hop : r.op = 0b010#3) (hlo : 0x2711#64 ≤ r.addr)
    (hhi : r.addr < 0x2790#64) : decode r = .writeUartOther r.wtag r.addr r.value :=
  (decode_write hop).trans (decodeWrite_of_uartOtherRange ⟨hlo, hhi⟩)

/-- The last byte of the UART block is 0x278F (42_write.md R103). -/
theorem lt_uartLimit_iff (a : Addr) : a < 0x2790#64 ↔ a ≤ 0x278F#64 := by bv_omega

/-- The catch-all row: none of the addresses bound before it (30_encoding.md R66). -/
theorem decode_eq_writeOther {r : Request} (hop : r.op = 0b010#3) (hconsole : r.addr ≠ 0xFFF4#64)
    (huart : r.addr ≠ 0x2710#64) (hother : ¬(0x2711#64 ≤ r.addr ∧ r.addr ≤ 0x278F#64))
    (hmtime : r.addr ≠ 0x0200_BFF8#64) (hmtimecmp : r.addr ≠ 0x0200_4000#64) (hmsip : r.addr ≠ 0x0200_0000#64) :
    decode r = .writeOther r.wtag r.addr r.value := by
  rw [← lt_uartLimit_iff] at hother
  rw [decode_write hop, decodeWrite_eq, if_neg hconsole, if_neg huart, if_neg hother, if_neg hmtime,
    if_neg hmtimecmp, if_neg hmsip]

end Sys2Proof

namespace Sys2Proof.Machine

theorem exec_writeConsole (w : Config.WidthTag) (v : Word) (s : State) :
    exec (.writeConsole w v) s =
      .next
        { s with
          block := { s.block with consolePending := s.block.consolePending ++ [v.extractLsb' 0 8] }
          responses := s.responses ++ [.result (.ok 0)] } :=
  exec_eq_complete (i := .writeConsole w v) nofun s

/-- The UART port means what the console port means: one buffer takes the bytes of both (42_write.md R102). -/
theorem exec_writeUartOut_eq_writeConsole (w : Config.WidthTag) (v : Word) (s : State) :
    exec (.writeUartOut w v) s = exec (.writeConsole w v) s := rfl

theorem exec_writeUartOther (w : Config.WidthTag) (a : Addr) (v : Word) (s : State) :
    exec (.writeUartOther w a v) s = .next { s with responses := s.responses ++ [.result (.ok 0)] } :=
  exec_eq_complete (i := .writeUartOther w a v) nofun s

theorem exec_writeOther (w : Config.WidthTag) (a : Addr) (v : Word) (s : State) :
    exec (.writeOther w a v) s = .next { s with responses := s.responses ++ [.result .storeAmoAccessFault] } :=
  exec_eq_complete (i := .writeOther w a v) nofun s

/-- A console WRITE that completes leaves its byte behind the bytes pending before. -/
theorem consolePending_of_exec_writeConsole {w : Config.WidthTag} {v : Word} {s t : State}
    (h : exec (.writeConsole w v) s = .next t) :
    t.block.consolePending = s.block.consolePending ++ [v.extractLsb' 0 8] := by
  obtain ⟨-, rfl⟩ := exec_cases h
  exact appendConsole_consolePending s.block (consoleByte v)

/-- Settles O25: the address falls through every bound row to the last, which answers the fault. -/
theorem writeOtherFaultsAndChangesNothing : Obligations.WriteOtherFaultsAndChangesNothing :=
  fun r s hop hconsole huart hother hmtime hmtimecmp hmsip =>
    ⟨decode_eq_writeOther hop hconsole huart hother hmtime hmtimecmp hmsip, exec_writeOther r.wtag r.addr r.value s⟩

/-- Settles O19: the row of the port's own address, and for the rest of its window the catch-all row. -/
theorem writeConsoleAppendsTheLowByte : Obligations.WriteConsoleAppendsTheLowByte := by
  constructor
  · intro r s hop ha
    exact ⟨decode_eq_writeConsole hop ha, exec_writeConsole r.wtag r.value s⟩
  · intro r s hop hlo hhi
    have hdecode : decode r = .writeOther r.wtag r.addr r.value := by
      apply decode_eq_writeOther hop <;> bv_omega
    rw [hdecode, exec_writeOther]

/-- Settles O20: the UART row means what the console row does, so each of two WRITEs appends to what the one before
it left pending. -/
theorem writeUartOutAppendsTheLowByte : Obligations.WriteUartOutAppendsTheLowByte := by
  constructor
  · intro r s hop ha
    refine ⟨decode_eq_writeUartOut hop ha, ?_⟩
    rw [exec_writeUartOut_eq_writeConsole, exec_writeConsole]
  · intro w w' v v' s t u hconsole huart
    rw [exec_writeUartOut_eq_writeConsole] at huart
    rw [consolePending_of_exec_writeConsole huart, consolePending_of_exec_writeConsole hconsole, List.append_assoc,
      List.singleton_append]

/-- Settles O21: the range of the row up to the block's last byte, and one past it the catch-all row. -/
theorem writeUartOtherHasNoEffect : Obligations.WriteUartOtherHasNoEffect := by
  constructor
  · intro r s hop hlo hhi
    exact ⟨decode_eq_writeUartOther hop hlo hhi, exec_writeUartOther r.wtag r.addr r.value s⟩
  · intro r s hop ha
    have hdecode : decode r = .writeOther r.wtag r.addr r.value := by
      apply decode_eq_writeOther hop <;> simp [ha]
    rw [hdecode, exec_writeOther]

end Sys2Proof.Machine
end

section
/-! PROOF. AMO and the fault it shares with WRITE.other (43_atomic.md R110, R111). -/

namespace Sys2Proof.Machine

theorem exec_amo (a : Addr) (w : Config.WidthTag) (k : Config.AmoKind) (aq rl : Bool) (v : Word) (s : State) :
    exec (.amo a w k aq rl v) s = .next { s with responses := s.responses ++ [.result .storeAmoAccessFault] } :=
  exec_eq_complete (i := .amo a w k aq rl v) nofun s

/-- Settles O27: op 011 alone selects the row, and the row answers the fault whatever its operands are. -/
theorem amoAlwaysFaultsAndChangesNothing : Obligations.AmoAlwaysFaultsAndChangesNothing :=
  fun r s hop => ⟨decode_amo hop, exec_amo r.addr r.wtag r.amoKind r.aq r.rl r.value s⟩

/-- Settles O28: each of the two rows answers the fault over the state as it was, so the outcomes are one. -/
theorem amoFaultIsTheWriteFault : Obligations.AmoFaultIsTheWriteFault := by
  intro a a' w w' k aq rl v v' s
  have hamo := exec_amo a w k aq rl v s
  exact ⟨hamo.trans (exec_writeOther w' a' v' s).symm, hamo⟩

end Sys2Proof.Machine
end

section
/-! PROOF. The console buffer: DRAIN and READ_ALL, and the paths that reach its two halves (44_console.md R120, R121,
R123). -/

namespace Sys2Proof.Machine

theorem exec_drain (s : State) :
    exec .drain s =
      .next
        { s with
          block := drainConsole s.block
          responses := s.responses ++ [.drainedBytes s.block.consolePending] } :=
  exec_eq_complete (i := .drain) nofun s

theorem exec_readAll (s : State) :
    exec .readAll s = .next { s with responses := s.responses ++ [.fullBytes (consoleHistory s.block)] } :=
  exec_eq_complete (i := .readAll) nofun s

theorem block_eq_of_exec_drain {s t : State} (h : exec .drain s = .next t) : t.block = drainConsole s.block := by
  obtain ⟨-, rfl⟩ := exec_cases h
  rfl

/-- With nothing pending there is nothing to move, since appending the empty list changes nothing (44_console.md
R120). -/
theorem drainConsole_of_consolePending_eq_nil {b : Block} (h : b.consolePending = []) : drainConsole b = b := by
  obtain ⟨mtime, mtimecmp, msip, consumed, pending, tip⟩ := b
  obtain rfl : pending = [] := h
  simp only [drainConsole, List.append_nil]

/-- Settles O30: a DRAIN leaves the pending half empty, so a second one has nothing to move and nothing to answer. -/
theorem drainMovesThePendingBytes : Obligations.DrainMovesThePendingBytes := by
  refine ⟨fun r s hop => ⟨decode_drain hop, exec_drain s⟩, fun s t hs h => ?_, fun s t h => ?_⟩
  · rw [block_eq_of_exec_drain h, drainConsole_of_consolePending_eq_nil hs]
  · have ht : t.block.consolePending = [] := by
      rw [block_eq_of_exec_drain h, drainConsole_consolePending]
    rw [exec_drain, drainConsole_of_consolePending_eq_nil ht, ht]

/-- Settles O31: the answer is the history, which a DRAIN keeps and which is empty at reset. -/
theorem readAllReturnsTheFullHistory : Obligations.ReadAllReturnsTheFullHistory := by
  refine ⟨fun r s hop => ⟨decode_readAll hop, exec_readAll s⟩, fun s t h => ?_, exec_readAll State.reset⟩
  have hhistory : consoleHistory t.block = consoleHistory s.block := by
    rw [block_eq_of_exec_drain h, consoleHistory_drainConsole]
  rw [exec_readAll, hhistory]
  rfl

/-- The frame of the pending half: beside DRAIN and the two appending WRITEs, a register WRITE touches one register,
TICK the timer fields, and the rest leave the block as it is. -/
theorem blockAfter_consolePending_of_ne {i : Instr} (hconsole : ∀ w v, i ≠ .writeConsole w v)
    (huart : ∀ w v, i ≠ .writeUartOut w v) (hdrain : i ≠ .drain) (b : Block) :
    (blockAfter b i).consolePending = b.consolePending := by
  cases i with
  | writeConsole w v => exact absurd rfl (hconsole w v)
  | writeUartOut w v => exact absurd rfl (huart w v)
  | drain => exact absurd rfl hdrain
  | tick => exact tickBlock_consolePending b
  | writeMtime | writeMtimecmp | writeMsip => rfl
  | classify | readMtime | readMtimecmp | readMsip | readOther | readAll => rfl
  | writeUartOther | writeOther | amo | reserved => rfl

/-- What a READ of the address answers: one of the three registers or the sentinel, so the console halves do not enter
it (44_console.md R123). -/
def readValue (b : Block) (a : Addr) : Word :=
  if a = 0x0200_BFF8#64 then b.mtime
  else if a = 0x0200_4000#64 then b.mtimecmp
  else if a = 0x0200_0000#64 then b.msip
  else Config.platform.sentinel

theorem exec_decode_read {r : Request} (hop : r.op = 0b001#3) (s : State) :
    exec (decode r) s = .next { s with responses := s.responses ++ [.result (.ok (readValue s.block r.addr))] } := by
  rw [decode_read hop, decodeRead_eq, readValue]
  split_ifs with hmtime hmtimecmp hmsip
  · exact exec_readMtime r.wtag s
  · exact exec_readMtimecmp r.wtag s
  · exact exec_readMsip r.wtag s
  · exact exec_readOther r.wtag r.addr s

theorem readValue_congr {b b' : Block} (hmtime : b.mtime = b'.mtime) (hmtimecmp : b.mtimecmp = b'.mtimecmp)
    (hmsip : b.msip = b'.msip) (a : Addr) : readValue b a = readValue b' a := by
  simp only [readValue, hmtime, hmtimecmp, hmsip]

/-- Settles O33: the frames of the two halves, the blocks after the paths that reach them, and a READ's answer as a
function of the three registers alone. -/
theorem consoleBufferIsReachedOnlyThroughItsPaths : Obligations.ConsoleBufferIsReachedOnlyThroughItsPaths := by
  refine ⟨?frame, ?append, ?drain, ?readAll, ?reset, ?read⟩
  case frame =>
    intro i s t h hconsole huart hdrain
    obtain ⟨-, rfl⟩ := exec_cases h
    exact ⟨blockAfter_consoleConsumed_of_ne_drain hdrain s.block,
      blockAfter_consolePending_of_ne hconsole huart hdrain s.block⟩
  case append =>
    intro w v s t h
    rw [exec_writeUartOut_eq_writeConsole, or_self] at h
    obtain ⟨hconsumed, -⟩ := onlyDrainExtendsTheConsumedHalf (.writeConsole w v) s t h
    exact ⟨hconsumed nofun, consolePending_of_exec_writeConsole h⟩
  case drain =>
    intro s t h
    rw [block_eq_of_exec_drain h]
    exact ⟨drainConsole_consoleConsumed s.block, drainConsole_consolePending s.block⟩
  case readAll =>
    intro s t h
    obtain ⟨-, rfl⟩ := exec_cases h
    rfl
  case reset =>
    intro s rest hs
    exact ⟨_, step_reset hs, rfl, rfl⟩
  case read =>
    intro r s s' hop hmtime hmtimecmp hmsip
    refine ⟨readValue s.block r.addr, exec_decode_read hop s, ?_⟩
    rw [readValue_congr hmtime hmtimecmp hmsip]
    exact exec_decode_read hop s'

end Sys2Proof.Machine
end

section
/-! PROOF. TICK: whether it fires is the pre-tick comparison of threshold and counter as numbers, and both outcomes
count (45_timer.md R130, R132, R136). -/

namespace Sys2Proof.Machine

theorem exec_tick (s : State) :
    exec .tick s =
      .next
        { s with
          block := tickBlock s.block
          responses := s.responses ++ [.interruptPending (timerFires s.block)] } :=
  exec_eq_complete (i := .tick) nofun s

theorem timerFires_iff_toNat (b : Block) : timerFires b = true ↔ b.mtime.toNat ≤ b.mtimecmp.toNat :=
  (timerFires_iff b).trans BitVec.le_def

theorem timerFires_eq_false_iff_toNat (b : Block) : timerFires b = false ↔ b.mtimecmp.toNat < b.mtime.toNat := by
  rw [← Bool.not_eq_true, timerFires_iff_toNat, not_le]

theorem tickBlock_mtimecmp_of_not_fires {b : Block} (h : timerFires b = false) :
    (tickBlock b).mtimecmp = b.mtimecmp := by
  rw [tickBlock_mtimecmp, h, if_neg Bool.false_ne_true]

/-- Below its top value the counter does not wrap (45_timer.md R133). -/
theorem tickBlock_mtime_toNat_of_lt {b : Block} (h : b.mtime.toNat + 1 < 2 ^ 64) :
    (tickBlock b).mtime.toNat = b.mtime.toNat + 1 :=
  BitVec.toNat_add_of_lt h

theorem timerFires_reset : timerFires Block.reset = false := by decide

/-- Settles O37: each outcome is the comparator's answer put into the TICK's response and block; at reset the threshold
0 is below the counter 1. -/
theorem tickHasTheTwoDocumentedOutcomes : Obligations.TickHasTheTwoDocumentedOutcomes := by
  refine ⟨fun s hmtime hge => ?fires, fun s hmtime hlt => ?quiet, ?reset⟩
  case fires =>
    have hfires : timerFires s.block = true := (timerFires_iff_toNat s.block).2 hge
    have hcleared := mtimecmp_eq_zero_of_tick_fires (exec_tick s) ((timerFires_iff s.block).1 hfires)
    refine ⟨_, exec_tick s, ?_, hcleared, tickBlock_mtime_toNat_of_lt hmtime⟩
    rw [hfires]
  case quiet =>
    have hquiet : timerFires s.block = false := (timerFires_eq_false_iff_toNat s.block).2 hlt
    refine ⟨_, exec_tick s, ?_, tickBlock_mtimecmp_of_not_fires hquiet, tickBlock_mtime_toNat_of_lt hmtime⟩
    rw [hquiet]
  case reset =>
    refine ⟨_, exec_tick State.reset, ?_⟩
    rw [reset_block, timerFires_reset, reset_responses, List.nil_append]

end Sys2Proof.Machine
end

section
/-! PROOF. The fault: the two rows that answer it, and the requests that decode to them (60_exceptions.md R142,
R144). -/

namespace Sys2Proof

/-- The rows of 60_exceptions.md R142: WRITE at an address no row binds, and AMO. -/
def Instr.isFaultRow : Instr → Bool
  | .writeOther _ _ _ | .amo _ _ _ _ _ _ => true
  | .classify _ | .readMtime _ | .readMtimecmp _ | .readMsip _ | .readOther _ _ => false
  | .writeConsole _ _ | .writeUartOut _ _ | .writeUartOther _ _ _ => false
  | .writeMtime _ _ | .writeMtimecmp _ _ | .writeMsip _ _ => false
  | .drain | .readAll | .tick | .reserved => false

theorem isFaultRow_decodeRead (r : Request) : (decodeRead r).isFaultRow = false := by
  obtain h | h | h | h := decodeRead_rows r <;> rw [h] <;> rfl

/-- Every bound address of 30_encoding.md R66 takes a WRITE to a row that answers `Ok`. -/
theorem isFaultRow_decodeWrite_iff (r : Request) :
    (decodeWrite r).isFaultRow = true ↔
      r.addr ≠ 0xFFF4#64 ∧ r.addr ≠ 0x2710#64 ∧ ¬(0x2711#64 ≤ r.addr ∧ r.addr < 0x2790#64) ∧
        r.addr ≠ 0x0200_BFF8#64 ∧ r.addr ≠ 0x0200_4000#64 ∧ r.addr ≠ 0x0200_0000#64 := by
  rw [decodeWrite_eq]
  split_ifs with hconsole huart hother hmtime hmtimecmp hmsip
  · exact iff_of_false nofun fun ⟨h, _⟩ => h hconsole
  · exact iff_of_false nofun fun ⟨_, h, _⟩ => h huart
  · exact iff_of_false nofun fun ⟨_, _, h, _⟩ => h hother
  · exact iff_of_false nofun fun ⟨_, _, _, h, _⟩ => h hmtime
  · exact iff_of_false nofun fun ⟨_, _, _, _, h, _⟩ => h hmtimecmp
  · exact iff_of_false nofun fun ⟨_, _, _, _, _, h⟩ => h hmsip
  · exact iff_of_true rfl ⟨hconsole, huart, hother, hmtime, hmtimecmp, hmsip⟩

/-- A request decodes to a fault row by its `op` alone for AMO, and by `op` and the list of WRITE rows for WRITE. -/
theorem isFaultRow_decode_iff (r : Request) :
    (decode r).isFaultRow = true ↔ r.op = 0b011#3 ∨ r.op = 0b010#3 ∧ (decodeWrite r).isFaultRow = true := by
  rcases op_cases r.op with hop | hop | hop | hop | hop | hop | hop | hop
  · simp [decode_classify hop, hop, Instr.isFaultRow]
  · simp [decode_read hop, hop, isFaultRow_decodeRead]
  · simp [decode_write hop, hop]
  · simp [decode_amo hop, hop, Instr.isFaultRow]
  · simp [decode_drain hop, hop, Instr.isFaultRow]
  · simp [decode_readAll hop, hop, Instr.isFaultRow]
  · simp [decode_tick hop, hop, Instr.isFaultRow]
  · simp [decode_reserved hop, hop, Instr.isFaultRow]

end Sys2Proof

namespace Sys2Proof.Machine

/-- Among the rows that complete, the fault rows are those that answer the fault. -/
theorem responseTo_eq_fault_iff {i : Instr} (hi : i ≠ .reserved) (b : Block) :
    responseTo b i = .result .storeAmoAccessFault ↔ i.isFaultRow = true := by
  cases i with
  | writeOther | amo => exact iff_of_true rfl rfl
  | classify | readMtime | readMtimecmp | readMsip | readOther => exact iff_of_false nofun nofun
  | writeConsole | writeUartOut | writeUartOther => exact iff_of_false nofun nofun
  | writeMtime | writeMtimecmp | writeMsip => exact iff_of_false nofun nofun
  | drain | readAll | tick => exact iff_of_false nofun nofun
  | reserved => exact absurd rfl hi

/-- The fault rows leave the block as it is (60_exceptions.md R144). -/
theorem blockAfter_of_isFaultRow {i : Instr} (h : i.isFaultRow = true) (b : Block) : blockAfter b i = b := by
  cases i with
  | writeOther | amo => rfl
  | _ => cases h

/-- A transaction that completes answers the fault where it is a fault row. -/
theorem responses_eq_fault_iff {i : Instr} {s t : State} (h : exec i s = .next t) :
    t.responses = s.responses ++ [.result .storeAmoAccessFault] ↔ i.isFaultRow = true := by
  obtain ⟨hi, rfl⟩ := exec_cases h
  rw [← responseTo_eq_fault_iff hi s.block, List.append_right_inj, List.singleton_inj]

/-- Settles O29: the one response tells the fault rows from the others, and the decoder says which requests are
these. -/
theorem onlyUnboundWritesAndAmoFault : Obligations.OnlyUnboundWritesAndAmoFault := by
  intro r s t h
  rw [responses_eq_fault_iff h, ← isFaultRow_decodeWrite_iff]
  refine ⟨isFaultRow_decode_iff r, fun hfault => ?_⟩
  obtain ⟨-, rfl⟩ := exec_cases h
  exact blockAfter_of_isFaultRow hfault s.block

end Sys2Proof.Machine
end

section
/-! PROOF. The rows of the decoder read backwards: the addresses no row binds, and the request each row's transaction
encodes (30_encoding.md R60, R65, R66). -/

namespace Sys2Proof

/-! ## The addresses the rows bind -/

theorem readBound_eq_false_iff (a : Addr) :
    readBound a = false ↔ a ≠ 0x0200_BFF8#64 ∧ a ≠ 0x0200_4000#64 ∧ a ≠ 0x0200_0000#64 := by
  simp [readBound, and_assoc]

theorem uartOtherRange_iff (a : Addr) : uartOtherRange a = true ↔ 0x2711#64 ≤ a ∧ a < 0x2790#64 := by
  simp only [uartOtherRange, uart_base_eq, uart_limit_eq, uartOut_lt_iff, Bool.and_eq_true, decide_eq_true_eq]

theorem writeBound_eq_false_iff (a : Addr) :
    writeBound a = false ↔
      a ≠ 0xFFF4#64 ∧ a ≠ 0x2710#64 ∧ ¬(0x2711#64 ≤ a ∧ a < 0x2790#64) ∧
        a ≠ 0x0200_BFF8#64 ∧ a ≠ 0x0200_4000#64 ∧ a ≠ 0x0200_0000#64 := by
  simp only [← Bool.not_eq_true, writeBound, Bool.or_eq_true, uartOtherRange_iff, beq_iff_eq, consoleOutAddr_eq,
    uartOutAddr_eq, mtimeAddr_eq, mtimecmpAddr_eq, msipAddr_eq, not_or, and_assoc, ne_eq]

theorem wellFormed_readOther_iff (w : Config.WidthTag) (a : Addr) :
    (Instr.readOther w a).wellFormed = true ↔ readBound a = false := by
  rw [Instr.wellFormed, Bool.not_eq_true']

theorem wellFormed_writeUartOther_iff (w : Config.WidthTag) (a : Addr) (v : Word) :
    (Instr.writeUartOther w a v).wellFormed = true ↔ 0x2711#64 ≤ a ∧ a < 0x2790#64 :=
  uartOtherRange_iff a

theorem wellFormed_writeOther_iff (w : Config.WidthTag) (a : Addr) (v : Word) :
    (Instr.writeOther w a v).wellFormed = true ↔ writeBound a = false := by
  rw [Instr.wellFormed, Bool.not_eq_true']

/-- Where no row binds the address, READ falls through to its catch-all (30_encoding.md R65). -/
theorem decode_eq_readOther {r : Request} (hop : r.op = 0b001#3) (ha : readBound r.addr = false) :
    decode r = .readOther r.wtag r.addr := by
  obtain ⟨hmtime, hmtimecmp, hmsip⟩ := (readBound_eq_false_iff r.addr).1 ha
  rw [decode_read hop, decodeRead_eq, if_neg hmtime, if_neg hmtimecmp, if_neg hmsip]

/-- Where no row binds the address, WRITE falls through to its catch-all (30_encoding.md R66). -/
theorem decode_eq_writeOther_of_not_writeBound {r : Request} (hop : r.op = 0b010#3) (ha : writeBound r.addr = false) :
    decode r = .writeOther r.wtag r.addr r.value := by
  obtain ⟨hconsole, huart, hother, hmtime, hmtimecmp, hmsip⟩ := (writeBound_eq_false_iff r.addr).1 ha
  rw [lt_uartLimit_iff] at hother
  exact decode_eq_writeOther hop hconsole huart hother hmtime hmtimecmp hmsip

theorem decode_eq_writeMtime {r : Request} (hop : r.op = 0b010#3) (ha : r.addr = 0x0200_BFF8#64) :
    decode r = .writeMtime r.wtag r.value := by
  simp [decode_write hop, decodeWrite_eq, ha]

theorem decode_eq_writeMtimecmp {r : Request} (hop : r.op = 0b010#3) (ha : r.addr = 0x0200_4000#64) :
    decode r = .writeMtimecmp r.wtag r.value := by
  simp [decode_write hop, decodeWrite_eq, ha]

theorem decode_eq_writeMsip {r : Request} (hop : r.op = 0b010#3) (ha : r.addr = 0x0200_0000#64) :
    decode r = .writeMsip r.wtag r.value := by
  simp [decode_write hop, decodeWrite_eq, ha]

/-! ## Decoding after encoding -/

/-- Settles O5: the encoding of each row carries the row's `op` and an address on which the decoder picks that row;
for the three rows that leave the address free, well-formedness is the condition it tests. -/
theorem decodeOfEncodeIsTheTransaction : Obligations.DecodeOfEncodeIsTheTransaction := by
  intro i h
  cases i with
  | classify => exact decode_classify rfl
  | readMtime => exact decode_eq_readMtime rfl rfl
  | readMtimecmp => exact decode_eq_readMtimecmp rfl rfl
  | readMsip => exact decode_eq_readMsip rfl rfl
  | readOther w a => exact decode_eq_readOther rfl ((wellFormed_readOther_iff w a).1 h)
  | writeConsole => exact decode_eq_writeConsole rfl rfl
  | writeUartOut => exact decode_eq_writeUartOut rfl rfl
  | writeUartOther w a v =>
    obtain ⟨hlo, hhi⟩ := (wellFormed_writeUartOther_iff w a v).1 h
    exact decode_eq_writeUartOther rfl hlo hhi
  | writeMtime => exact decode_eq_writeMtime rfl rfl
  | writeMtimecmp => exact decode_eq_writeMtimecmp rfl rfl
  | writeMsip => exact decode_eq_writeMsip rfl rfl
  | writeOther w a v => exact decode_eq_writeOther_of_not_writeBound rfl ((wellFormed_writeOther_iff w a v).1 h)
  | amo => exact decode_amo rfl
  | drain => exact decode_drain rfl
  | readAll => exact decode_readAll rfl
  | tick => exact decode_tick rfl
  | reserved => exact decode_reserved rfl

/-! ## Encoding after decoding -/

/-- A READ row gives back the operands of format R. -/
theorem encode_decodeRead (r : Request) :
    encode (decodeRead r) = { op := 0b001#3, addr := r.addr, wtag := r.wtag } := by
  unfold decodeRead
  split_ifs with hmtime hmtimecmp hmsip
  · rw [hmtime]; rfl
  · rw [hmtimecmp]; rfl
  · rw [hmsip]; rfl
  · rfl

/-- A WRITE row gives back the operands of format W. -/
theorem encode_decodeWrite (r : Request) :
    encode (decodeWrite r) = { op := 0b010#3, addr := r.addr, wtag := r.wtag, value := r.value } := by
  unfold decodeWrite
  split_ifs with hconsole huart hother hmtime hmtimecmp hmsip
  · rw [hconsole]; rfl
  · rw [huart]; rfl
  · rfl
  · rw [hmtime]; rfl
  · rw [hmtimecmp]; rfl
  · rw [hmsip]; rfl
  · rfl

theorem wellFormed_decodeRead (r : Request) : (decodeRead r).wellFormed = true := by
  rw [decodeRead_eq]
  split_ifs with hmtime hmtimecmp hmsip
  · rfl
  · rfl
  · rfl
  · exact (wellFormed_readOther_iff _ _).2 ((readBound_eq_false_iff r.addr).2 ⟨hmtime, hmtimecmp, hmsip⟩)

theorem wellFormed_decodeWrite (r : Request) : (decodeWrite r).wellFormed = true := by
  rw [decodeWrite_eq]
  split_ifs with hconsole huart hother hmtime hmtimecmp hmsip
  · rfl
  · rfl
  · exact (wellFormed_writeUartOther_iff _ _ _).2 hother
  · rfl
  · rfl
  · rfl
  · exact (wellFormed_writeOther_iff _ _ _).2
      ((writeBound_eq_false_iff r.addr).2 ⟨hconsole, huart, hother, hmtime, hmtimecmp, hmsip⟩)

/-- Every request decodes to a term that some request encodes (30_encoding.md R69). -/
theorem wellFormed_decode (r : Request) : (decode r).wellFormed = true := by
  rcases op_cases r.op with hop | hop | hop | hop | hop | hop | hop | hop
  · rw [decode_classify hop]; rfl
  · rw [decode_read hop, wellFormed_decodeRead]
  · rw [decode_write hop, wellFormed_decodeWrite]
  · rw [decode_amo hop]; rfl
  · rw [decode_drain hop]; rfl
  · rw [decode_readAll hop]; rfl
  · rw [decode_tick hop]; rfl
  · rw [decode_reserved hop]; rfl

theorem encode_decode_op (r : Request) : (encode (decode r)).op = r.op := by
  rcases op_cases r.op with hop | hop | hop | hop | hop | hop | hop | hop
  · rw [decode_classify hop, hop]; rfl
  · rw [decode_read hop, encode_decodeRead, hop]
  · rw [decode_write hop, encode_decodeWrite, hop]
  · rw [decode_amo hop, hop]; rfl
  · rw [decode_drain hop, hop]; rfl
  · rw [decode_readAll hop, hop]; rfl
  · rw [decode_tick hop, hop]; rfl
  · rw [decode_reserved hop, hop]; rfl

/-- Formats C, R, W and A carry the address (30_encoding.md R60). -/
theorem encode_decode_addr {r : Request} (h : r.op.toNat ≤ 3) : (encode (decode r)).addr = r.addr := by
  rcases op_cases r.op with hop | hop | hop | hop | hop | hop | hop | hop
  · rw [decode_classify hop]; rfl
  · rw [decode_read hop, encode_decodeRead]
  · rw [decode_write hop, encode_decodeWrite]
  · rw [decode_amo hop]; rfl
  all_goals simp [hop] at h

/-- Settles O6: decoding keeps `op`, and where the format has an address, that too, so the key is the same. -/
theorem everyRequestDecodesAndKeepsItsKey : Obligations.EveryRequestDecodesAndKeepsItsKey := by
  intro r
  refine ⟨wellFormed_decode r, encode_decode_op r, fun h => ?_⟩
  rw [Request.key, Request.key, encode_decode_op, encode_decode_addr h]

/-- Settles O4: each word is cut into `op` and address and decoded. -/
theorem specKeysDecodeToTheirRows : Obligations.SpecKeysDecodeToTheirRows := by
  unfold Obligations.SpecKeysDecodeToTheirRows
  decide

end Sys2Proof
end

section
/-! PROOF. The operands no meaning reads, and the text lines, whose omitted tag is one of them (30_encoding.md R67,
R68, R71). -/

namespace Sys2Proof.Machine

/-- Two requests that differ only in the tag have one outcome (20_memory.md R46). -/
theorem exec_decode_wtag (r : Request) (w : Config.WidthTag) (s : State) :
    exec (decode { r with wtag := w }) s = exec (decode r) s := by
  rw [decode_wtag, exec_withTag]

/-- A WRITE row takes the address, the tag and the value of the request and nothing else. -/
theorem decodeWrite_congr {r r' : Request} (ha : r.addr = r'.addr) (hv : r.value = r'.value) :
    decodeWrite r = (decodeWrite r').withTag r.wtag := by
  rw [← decodeWrite_wtag, decodeWrite_eq, decodeWrite_eq, ha, hv]

/-- Settles O47: operation by operation, a READ's answer is a function of the address, a WRITE row takes address and
value, and from AMO on the outcome is one for each `op`. -/
theorem ignoredOperandsDoNotMatter : Obligations.IgnoredOperandsDoNotMatter := by
  intro r r' s hop haddr hvalue
  rcases op_cases r.op with h | h | h | h | h | h | h | h
  all_goals have h' := hop.symm.trans h
  · rw [decode_classify h, decode_classify h', haddr (by simp [h])]
  · rw [exec_decode_read h, exec_decode_read h', haddr (by simp [h])]
  · rw [decode_write h, decode_write h', decodeWrite_congr (haddr (by simp [h])) (hvalue h), exec_withTag]
  · rw [decode_amo h, decode_amo h', exec_amo, exec_amo]
  · rw [decode_drain h, decode_drain h']
  · rw [decode_readAll h, decode_readAll h']
  · rw [decode_tick h, decode_tick h']
  · rw [decode_reserved h, decode_reserved h']

/-- Settles O10: a line that omits the tag is a request that differs from the tagged line's in the tag alone. -/
theorem textLinesEncodeTheirOperands : Obligations.TextLinesEncodeTheirOperands := by
  constructor
  · intro a w k aq rl v
    exact ⟨rfl, rfl, rfl, rfl, rfl, rfl, rfl⟩
  · intro a w k aq rl v s
    exact ⟨(exec_decode_wtag (assemble (.read none a)) w s).symm,
      (exec_decode_wtag (assemble (.write none a v)) w s).symm,
      (exec_decode_wtag (assemble (.amo none a k aq rl v)) w s).symm⟩

end Sys2Proof.Machine
end

section
/-! PROOF. Single rows: the register WRITEs, READ at an unbound address, TICK as numbers, and the refused row
(42_write.md R104 to R106, 41_read.md R94, 45_timer.md R130, 30_encoding.md R63). -/

namespace Sys2Proof.Machine

theorem exec_writeMtime (w : Config.WidthTag) (v : Word) (s : State) :
    exec (.writeMtime w v) s =
      .next { s with block := { s.block with mtime := v }, responses := s.responses ++ [.result (.ok 0)] } :=
  exec_eq_complete (i := .writeMtime w v) nofun s

theorem exec_writeMtimecmp (w : Config.WidthTag) (v : Word) (s : State) :
    exec (.writeMtimecmp w v) s =
      .next { s with block := { s.block with mtimecmp := v }, responses := s.responses ++ [.result (.ok 0)] } :=
  exec_eq_complete (i := .writeMtimecmp w v) nofun s

theorem exec_writeMsip (w : Config.WidthTag) (v : Word) (s : State) :
    exec (.writeMsip w v) s =
      .next { s with block := { s.block with msip := v }, responses := s.responses ++ [.result (.ok 0)] } :=
  exec_eq_complete (i := .writeMsip w v) nofun s

theorem exec_reserved (s : State) : exec .reserved s = .refused .reservedOp := rfl

/-- Settles O9: `op` alone selects the row, and the row is refused in every state. -/
theorem reservedOpIsRefused : Obligations.ReservedOpIsRefused :=
  fun _ s hop => ⟨decode_reserved hop, exec_reserved s⟩

/-- Settles O17: the address falls through the three register rows, and the last row answers the sentinel. -/
theorem readOtherReturnsTheSentinel : Obligations.ReadOtherReturnsTheSentinel :=
  fun r s hop hmtime hmtimecmp hmsip =>
    ⟨decode_eq_readOther hop ((readBound_eq_false_iff r.addr).2 ⟨hmtime, hmtimecmp, hmsip⟩),
      exec_readOther r.wtag r.addr s⟩

/-- Settles O22: the row of the address, and the one field it stores. -/
theorem writeMtimeStoresTheValue : Obligations.WriteMtimeStoresTheValue :=
  fun r s hop ha => ⟨decode_eq_writeMtime hop ha, exec_writeMtime r.wtag r.value s⟩

/-- Settles O23: the row of the address, and the one field it stores. -/
theorem writeMtimecmpStoresTheValue : Obligations.WriteMtimecmpStoresTheValue :=
  fun r s hop ha => ⟨decode_eq_writeMtimecmp hop ha, exec_writeMtimecmp r.wtag r.value s⟩

/-- Settles O24: the row of the address, and the one field it stores. -/
theorem writeMsipStoresTheValue : Obligations.WriteMsipStoresTheValue :=
  fun r s hop ha => ⟨decode_eq_writeMsip hop ha, exec_writeMsip r.wtag r.value s⟩

/-- The comparator compares the two registers as numbers (45_timer.md R132). -/
theorem timerFires_eq_decide (b : Block) : timerFires b = decide (b.mtime.toNat ≤ b.mtimecmp.toNat) :=
  Bool.eq_iff_iff.2 ((timerFires_iff_toNat b).trans decide_eq_true_iff.symm)

/-- The pseudocode of 45_timer.md R130 over numbers, the counter modulo 2^64 (R133). -/
theorem tickBlock_eq_toNat (b : Block) :
    tickBlock b =
      { b with
        mtime := BitVec.ofNat 64 ((b.mtime.toNat + 1) % 2 ^ 64)
        mtimecmp := if b.mtimecmp.toNat ≥ b.mtime.toNat then 0 else b.mtimecmp
        tip := decide (b.mtimecmp.toNat ≥ b.mtime.toNat) } := by
  have hmtime : b.mtime + 1 = BitVec.ofNat 64 ((b.mtime.toNat + 1) % 2 ^ 64) := by
    apply BitVec.eq_of_toNat_eq
    simp
  simp only [tickBlock, hmtime, timerFires_eq_decide, decide_eq_true_eq, ge_iff_le]

/-- Settles O36: `op` selects the row, and its update and answer are read over numbers. -/
theorem tickUpdatesTheTimer : Obligations.TickUpdatesTheTimer := by
  intro r s hop
  refine ⟨decode_tick hop, ?_⟩
  rw [exec_tick, tickBlock_eq_toNat, timerFires_eq_decide]

end Sys2Proof.Machine
end

section
/-! PROOF. Which steps go on, and what each transaction leaves unchanged: one frame lemma per field of the block
(20_memory.md R48; 10_state.md R21 to R27; 60_exceptions.md R140). -/

namespace Sys2Proof.Machine

/-! ## The step -/

theorem step_idle {s : State} (h : s.inputs = []) : step s = .next s := by
  simp only [step, takeInput, h, idle]

/-- A presented request is decoded and run on the state with the request taken. -/
theorem step_eq_exec {s : State} {r : Request} {rest : List Input} (h : s.inputs = .request r :: rest) :
    step s = exec (decode r) { s with inputs := rest } := by
  simp only [step, takeInput, h]

theorem encodesTransaction_iff (r : Request) : encodesTransaction r = true ↔ r.op ≠ 0b111#3 := bne_iff_ne

theorem encodesTransaction_eq_false_iff (r : Request) : encodesTransaction r = false ↔ r.op = 0b111#3 :=
  bne_eq_false_iff_eq

/-- Settles O1: the reset values, and the step that takes a reset. -/
theorem resetLeavesTheResetValues : Obligations.ResetLeavesTheResetValues :=
  ⟨rfl, fun _ _ hs => step_reset hs⟩

/-- Settles O2: the two cases of a step without a reset. -/
theorem stepRunsTheDecodedTransaction : Obligations.StepRunsTheDecodedTransaction := by
  constructor
  · rintro s r rest i hs rfl
    exact step_eq_exec hs
  · exact fun s hs => step_idle hs

/-- Settles O3: by the next input; of the requests only `op = 111` decodes to the refused row. -/
theorem stepStopsOnlyAtTheReservedOp : Obligations.StepStopsOnlyAtTheReservedOp := by
  intro s
  rcases hs : s.inputs with _ | ⟨_ | r, rest⟩
  · exact ⟨fun _ => ⟨s, step_idle hs⟩, fun h => by simp [nextInputDefined, hs] at h⟩
  · exact ⟨fun _ => ⟨_, step_reset hs⟩, fun h => by simp [nextInputDefined, hs] at h⟩
  · have hnext : nextInputDefined s = encodesTransaction r := by simp only [nextInputDefined, hs]
    rw [hnext, encodesTransaction_iff, encodesTransaction_eq_false_iff]
    refine ⟨fun hop => ⟨_, step_request hs hop⟩, fun hop => ?_⟩
    rw [step_eq_exec hs, decode_reserved hop, exec_reserved]

/-- Settles O44: every row but RESERVED completes. -/
theorem everyTransactionCompletes : Obligations.EveryTransactionCompletes :=
  fun i s hi => ⟨blockAfter s.block i, responseTo s.block i, exec_eq_complete hi s⟩

/-! ## The frame of each field -/

@[simp] theorem blockAfter_tick (b : Block) : blockAfter b .tick = tickBlock b := rfl

@[simp] theorem responseTo_tick (b : Block) : responseTo b .tick = .interruptPending (timerFires b) := rfl

theorem blockAfter_mtime_of_ne {i : Instr} (htick : i ≠ .tick) (hwrite : ∀ w v, i ≠ .writeMtime w v) (b : Block) :
    (blockAfter b i).mtime = b.mtime := by
  cases i with
  | tick => exact absurd rfl htick
  | writeMtime w v => exact absurd rfl (hwrite w v)
  | _ => rfl

/-- A TICK that does not fire is no writer of `mtimecmp` either (45_timer.md R130). -/
theorem blockAfter_mtimecmp_of_ne {i : Instr} {b : Block} (htick : i = .tick → timerFires b = false)
    (hwrite : ∀ w v, i ≠ .writeMtimecmp w v) : (blockAfter b i).mtimecmp = b.mtimecmp := by
  cases i with
  | tick => exact tickBlock_mtimecmp_of_not_fires (htick rfl)
  | writeMtimecmp w v => exact absurd rfl (hwrite w v)
  | _ => rfl

theorem blockAfter_msip_of_ne {i : Instr} (hwrite : ∀ w v, i ≠ .writeMsip w v) (b : Block) :
    (blockAfter b i).msip = b.msip := by
  cases i with
  | writeMsip w v => exact absurd rfl (hwrite w v)
  | _ => rfl

theorem blockAfter_tip_of_ne_tick {i : Instr} (h : i ≠ .tick) (b : Block) : (blockAfter b i).tip = b.tip := by
  cases i with
  | tick => exact absurd rfl h
  | _ => rfl

/-- Settles O43: the next state is `blockAfter` with one response more, and each field has its frame lemma. -/
theorem eachFieldHasOnlyItsNamedWriters : Obligations.EachFieldHasOnlyItsNamedWriters := by
  intro i s t h
  obtain ⟨-, rfl⟩ := exec_cases h
  refine ⟨rfl, ⟨_, rfl⟩, fun htick hwrite => blockAfter_mtime_of_ne htick hwrite s.block, ?mtimecmp,
    fun hwrite => blockAfter_msip_of_ne hwrite s.block,
    fun hdrain => blockAfter_consoleConsumed_of_ne_drain hdrain s.block,
    fun hdrain hconsole huart => blockAfter_consolePending_of_ne hconsole huart hdrain s.block,
    fun htick => blockAfter_tip_of_ne_tick htick s.block⟩
  case mtimecmp =>
    intro htick hwrite
    refine blockAfter_mtimecmp_of_ne (fun hi => ?_) hwrite
    rw [← Bool.not_eq_true, timerFires_iff]
    exact fun hfires => htick ⟨hi, hfires⟩

/-- Settles O38: only TICK writes the latch, and it writes the flag it answers. -/
theorem latchHoldsTheLastTickFlag : Obligations.LatchHoldsTheLastTickFlag := by
  intro i s t h
  obtain ⟨-, rfl⟩ := exec_cases h
  constructor
  · exact fun htick => blockAfter_tip_of_ne_tick htick s.block
  · rintro rfl
    rfl

end Sys2Proof.Machine
end

section
/-! PROOF. The console history: what each transaction adds to it, and what a stream of inputs makes of it (10_state.md
R26; 44_console.md R122). -/

namespace Sys2Proof

/-- The bytes a transaction puts on the console (42_write.md R101, R102). -/
def Instr.appendedBytes : Instr → List Byte
  | .writeConsole _ v | .writeUartOut _ v => [Machine.consoleByte v]
  | _ => []

theorem Instr.appendedBytes_of_ne {i : Instr} (hconsole : ∀ w v, i ≠ .writeConsole w v)
    (huart : ∀ w v, i ≠ .writeUartOut w v) : i.appendedBytes = [] := by
  cases i with
  | writeConsole w v => exact absurd rfl (hconsole w v)
  | writeUartOut w v => exact absurd rfl (huart w v)
  | _ => rfl

theorem writesAt_iff (a : Addr) (r : Request) : writesAt a r = true ↔ r.op = 0b010#3 ∧ r.addr = a := by
  simp [writesAt, Op.toBits]

/-- A request that decodes to a WRITE row is a WRITE at the address the row encodes. -/
theorem writesAt_of_decode_eq {r : Request} {i : Instr} (h : decode r = i) (hi : (encode i).op = 0b010#3) :
    writesAt (encode i).addr r = true := by
  subst h
  rw [encode_decode_op] at hi
  have hle : r.op.toNat ≤ 3 := by rw [hi]; decide
  rw [encode_decode_addr hle, writesAt_iff]
  exact ⟨hi, rfl⟩

/-- The console byte of a request, as the stream statements count it, is what its transaction appends. -/
theorem appendedBytes_decode (r : Request) : (decode r).appendedBytes = (consoleByteOf r).toList := by
  by_cases hconsole : writesAt 0xFFF4#64 r = true
  · obtain ⟨hop, ha⟩ := (writesAt_iff _ r).1 hconsole
    rw [decode_eq_writeConsole hop ha, Instr.appendedBytes, Machine.consoleByte_eq]
    simp [consoleByteOf, hconsole]
  by_cases huart : writesAt 0x2710#64 r = true
  · obtain ⟨hop, ha⟩ := (writesAt_iff _ r).1 huart
    rw [decode_eq_writeUartOut hop ha, Instr.appendedBytes, Machine.consoleByte_eq]
    simp [consoleByteOf, huart]
  · rw [Instr.appendedBytes_of_ne (fun w v h => hconsole (writesAt_of_decode_eq h rfl))
      (fun w v h => huart (writesAt_of_decode_eq h rfl))]
    simp [consoleByteOf, hconsole, huart]

end Sys2Proof

namespace Sys2Proof.Machine

/-- A transaction only adds to the history: DRAIN moves the border between the halves. -/
theorem consoleHistory_blockAfter (b : Block) (i : Instr) :
    consoleHistory (blockAfter b i) = consoleHistory b ++ i.appendedBytes := by
  cases i with
  | writeConsole w v => exact consoleHistory_appendConsole b (consoleByte v)
  | writeUartOut w v => exact consoleHistory_appendConsole b (consoleByte v)
  | drain => exact (consoleHistory_drainConsole b).trans (List.append_nil _).symm
  | _ => exact (List.append_nil _).symm

/-- Since the consumed half stays, what another transaction than DRAIN adds goes to the pending half. -/
theorem blockAfter_consolePending_of_ne_drain {i : Instr} (h : i ≠ .drain) (b : Block) :
    (blockAfter b i).consolePending = b.consolePending ++ i.appendedBytes := by
  have hhistory := consoleHistory_blockAfter b i
  rwa [consoleHistory, consoleHistory, blockAfter_consoleConsumed_of_ne_drain h, List.append_assoc,
    List.append_right_inj] at hhistory

/-- The run over a defined stream completes, and the history it leaves is the one the stream says. -/
theorem run_stream_history (is : List Input) {s : State} {rest : List Input} (his : streamDefined is = true)
    (hs : s.inputs = is ++ rest) :
    ∃ t, Host.Core.run Sys2Proof.core is.length s = .next t ∧ t.inputs = rest ∧
      consoleHistory t.block = bytesAppended (consoleHistory s.block) is := by
  induction is generalizing s with
  | nil => exact ⟨s, rfl, hs, rfl⟩
  | cons i is ih =>
    cases i with
    | reset =>
      obtain ⟨t, hrun, hinputs, hhistory⟩ := ih (s := { State.reset with inputs := is ++ rest }) his rfl
      exact ⟨t, (run_succ is.length (step_reset hs)).trans hrun, hinputs, hhistory⟩
    | request r =>
      obtain ⟨hr, his⟩ : encodesTransaction r = true ∧ streamDefined is = true := Bool.and_eq_true_iff.1 his
      have hstep := step_request hs ((encodesTransaction_iff r).1 hr)
      obtain ⟨t, hrun, hinputs, hhistory⟩ :=
        ih (s := ⟨blockAfter s.block (decode r), is ++ rest, s.responses ++ [responseTo s.block (decode r)]⟩) his rfl
      refine ⟨t, (run_succ is.length hstep).trans hrun, hinputs, ?_⟩
      rw [hhistory, consoleHistory_blockAfter, appendedBytes_decode, bytesAppended]

/-- Settles O34: the history of a stream, and the pending half, which another transaction than DRAIN only extends. -/
theorem consoleHalvesAreTheWriteHistory : Obligations.ConsoleHalvesAreTheWriteHistory := by
  refine ⟨fun is his => ?stream, fun i s t h hpending => ?nonempty, fun s hpending => ?empty⟩
  case stream =>
    obtain ⟨t, hrun, -, hhistory⟩ :=
      run_stream_history is (s := { State.reset with inputs := is }) his (List.append_nil is).symm
    exact ⟨t, hrun, hhistory⟩
  case nonempty =>
    obtain ⟨-, rfl⟩ := exec_cases h
    constructor
    · intro hempty
      by_contra hdrain
      rw [blockAfter_consolePending_of_ne_drain hdrain, List.append_eq_nil_iff] at hempty
      exact hpending hempty.1
    · rintro rfl
      exact drainConsole_consolePending s.block
  case empty =>
    exact ⟨_, exec_drain s, drainConsole_consolePending s.block⟩

/-- Settles O35: after the stream, READ_ALL answers the history the stream has left. -/
theorem readAllAnswersEveryWrittenByte : Obligations.ReadAllAnswersEveryWrittenByte := by
  intro is r his hop
  obtain ⟨t, hrun, hinputs, hhistory⟩ :=
    run_stream_history is (s := { State.reset with inputs := is ++ [.request r] }) his rfl
  have hop' : r.op ≠ 0b111#3 := by rw [hop]; decide
  refine ⟨_, (run_add is.length 1 hrun).trans (run_succ 0 (step_request hinputs hop')), ?_⟩
  rw [List.getLast?_concat, decode_readAll hop, responseTo, hhistory]
  rfl

end Sys2Proof.Machine
end

section
/-! PROOF. The invariant of the machine: the record of responses agrees with the block (10_state.md R24, R26, R27;
45_timer.md R131). -/

namespace Sys2Proof

theorem drainedBytesOf_append (xs ys : List Machine.Response) :
    drainedBytesOf (xs ++ ys) = drainedBytesOf xs ++ drainedBytesOf ys := by
  induction xs with
  | nil => rfl
  | cons x xs ih => cases x <;> simp [drainedBytesOf, ih]

theorem lastTickFlag_append (before : Bool) (xs ys : List Machine.Response) :
    lastTickFlag before (xs ++ ys) = lastTickFlag (lastTickFlag before xs) ys := by
  induction xs generalizing before with
  | nil => rfl
  | cons x xs ih => cases x <;> simp [lastTickFlag, ih]

end Sys2Proof

namespace Sys2Proof.Machine

/-- What a transaction adds to the consumed half is what its response delivers (44_console.md R120). -/
theorem blockAfter_consoleConsumed (b : Block) (i : Instr) :
    (blockAfter b i).consoleConsumed = b.consoleConsumed ++ drainedBytesOf [responseTo b i] := by
  cases i with
  | drain => simp [blockAfter, responseTo, drainedBytesOf]
  | _ => exact (List.append_nil _).symm

/-- The latch after a transaction is the flag of its response, where that is a TICK's (45_timer.md R131). -/
theorem blockAfter_tip (b : Block) (i : Instr) : (blockAfter b i).tip = lastTickFlag b.tip [responseTo b i] := by
  cases i <;> rfl

/-- Only READ_ALL answers a snapshot, and it is the history (44_console.md R121). -/
theorem eq_consoleHistory_of_responseTo {b : Block} {i : Instr} {bytes : List Byte}
    (h : Response.fullBytes bytes = responseTo b i) : bytes = consoleHistory b := by
  cases i with
  | readAll =>
    cases h
    rfl
  | _ => cases h

/-- A transaction that completes keeps the invariant: block and record grow by the same bytes, the latch follows the
response, and the history only grows. -/
theorem exec_keeps_interfaceConsistent {i : Instr} {s t : State} (hs : InterfaceConsistent s)
    (h : exec i s = .next t) : InterfaceConsistent t := by
  obtain ⟨-, rfl⟩ := exec_cases h
  obtain ⟨hconsumed, hlatch, hsnapshots⟩ := hs
  refine ⟨?consumed, ?latch, fun bytes hmem => ?snapshots⟩
  case consumed => rw [blockAfter_consoleConsumed, drainedBytesOf_append, hconsumed]
  case latch => rw [blockAfter_tip, lastTickFlag_append, hlatch]
  case snapshots =>
    have hgrows : consoleHistory s.block <+: consoleHistory (blockAfter s.block i) :=
      ⟨i.appendedBytes, (consoleHistory_blockAfter s.block i).symm⟩
    obtain hold | hnew := List.mem_append.1 hmem
    · exact (hsnapshots bytes hold).trans hgrows
    · rwa [eq_consoleHistory_of_responseTo (List.mem_singleton.1 hnew)]

/-- The invariant does not speak of the inputs. -/
theorem interfaceConsistent_with_inputs {s : State} (hs : InterfaceConsistent s) (is : List Input) :
    InterfaceConsistent { s with inputs := is } := by
  obtain ⟨hconsumed, hlatch, hsnapshots⟩ := hs
  exact ⟨hconsumed, hlatch, hsnapshots⟩

/-- Settles O52: nothing is answered yet, so nothing is consumed, latched or shown. -/
theorem resetIsInterfaceConsistent : Obligations.ResetIsInterfaceConsistent :=
  ⟨rfl, rfl, fun _ hmem => absurd hmem List.not_mem_nil⟩

/-- Settles O53: by the three cases of a step. -/
theorem stepKeepsInterfaceConsistent : Obligations.StepKeepsInterfaceConsistent := by
  intro s t hs h
  obtain ⟨-, rfl⟩ | ⟨rest, -, rfl⟩ | ⟨r, rest, -, hexec⟩ := step_cases h
  · exact hs
  · exact interfaceConsistent_with_inputs resetIsInterfaceConsistent rest
  · exact exec_keeps_interfaceConsistent (interfaceConsistent_with_inputs hs rest) hexec

end Sys2Proof.Machine
end

section
/-! PROOF. Doing a transaction twice (20_memory.md R48). -/

namespace Sys2Proof.Machine

/-- Settles O45: a register WRITE overwrites its own value, a console WRITE appends each time, a READ leaves the block
it answers from, and a TICK adds 1 modulo 2^64. -/
theorem repeatedTransactions : Obligations.RepeatedTransactions := by
  refine ⟨fun i w v s t hi h => ?register, fun i w v s t hi h => ?console, fun r s t x hop h hx => ?read,
    fun s t h => ?tick⟩
  case register =>
    obtain ⟨hres, rfl⟩ := exec_cases h
    refine ⟨_, exec_eq_complete hres _, ?_⟩
    obtain rfl | rfl | rfl := hi <;> rfl
  case console =>
    obtain ⟨hres, rfl⟩ := exec_cases h
    have hdrain : i ≠ .drain := by obtain rfl | rfl := hi <;> nofun
    have hbytes : i.appendedBytes = [v.extractLsb' 0 8] := by obtain rfl | rfl := hi <;> rfl
    refine ⟨_, exec_eq_complete hres _, ?_⟩
    calc (blockAfter (blockAfter s.block i) i).consolePending
      _ = s.block.consolePending ++ i.appendedBytes ++ i.appendedBytes := by
        rw [blockAfter_consolePending_of_ne_drain hdrain, blockAfter_consolePending_of_ne_drain hdrain]
      _ = s.block.consolePending ++ [v.extractLsb' 0 8, v.extractLsb' 0 8] := by
        rw [hbytes, List.append_assoc, List.singleton_append]
  case read =>
    rw [exec_decode_read hop] at h
    cases h
    obtain rfl : Response.result (.ok (readValue s.block r.addr)) = x :=
      List.singleton_inj.1 (List.append_cancel_left hx)
    exact ⟨_, exec_decode_read hop _, rfl, List.append_assoc _ _ _⟩
  case tick =>
    obtain ⟨-, rfl⟩ := exec_cases h
    show s.block.mtime + 1 ≠ s.block.mtime
    bv_omega

end Sys2Proof.Machine
end

section
/-! PROOF. Runs over a stream of requests: the block each leaves, the responses it gives, and the registers as the
stream's WRITEs and TICKs make them (20_memory.md R50; 10_state.md R21, R23). -/

namespace Sys2Proof

theorem op_eq_of_decode_eq {r : Request} {i : Instr} (h : decode r = i) : r.op = (encode i).op := by
  rw [← h, encode_decode_op]

theorem isTick_iff (r : Request) : isTick r = true ↔ r.op = 0b110#3 := beq_iff_eq

end Sys2Proof

namespace Sys2Proof.Machine

/-- The block after a stream of requests. -/
def blockAfterRequests (b : Block) : List Request → Block
  | [] => b
  | r :: rs => blockAfterRequests (blockAfter b (decode r)) rs

/-- The responses to a stream of requests, one each. -/
def responsesTo (b : Block) : List Request → List Response
  | [] => []
  | r :: rs => responseTo b (decode r) :: responsesTo (blockAfter b (decode r)) rs

@[simp] theorem length_responsesTo (b : Block) (rs : List Request) : (responsesTo b rs).length = rs.length := by
  induction rs generalizing b with
  | nil => rfl
  | cons r rs ih => rw [responsesTo, List.length_cons, ih, List.length_cons]

/-- A run over requests that encode transactions completes, with the block and the responses above. -/
theorem run_requests (rs : List Request) {s : State} {rest : List Input}
    (hrs : ∀ r ∈ rs, encodesTransaction r = true) (hs : s.inputs = rs.map .request ++ rest) :
    Host.Core.run Sys2Proof.core rs.length s =
      .next ⟨blockAfterRequests s.block rs, rest, s.responses ++ responsesTo s.block rs⟩ := by
  induction rs generalizing s with
  | nil =>
    obtain ⟨b, is, out⟩ := s
    obtain rfl : is = rest := hs
    simp [blockAfterRequests, responsesTo]
  | cons r rs ih =>
    obtain ⟨hr, hrs⟩ := List.forall_mem_cons.1 hrs
    have hstep := step_request hs ((encodesTransaction_iff r).1 hr)
    rw [List.length_cons, run_succ _ hstep, ih hrs rfl, List.append_assoc]
    rfl

theorem run_two_requests {s : State} {r₁ r₂ : Request} {rest : List Input}
    (hs : s.inputs = .request r₁ :: .request r₂ :: rest) (h₁ : r₁.op ≠ 0b111#3) (h₂ : r₂.op ≠ 0b111#3) :
    Host.Core.run Sys2Proof.core 2 s =
      .next ⟨blockAfter (blockAfter s.block (decode r₁)) (decode r₂), rest,
        s.responses ++ [responseTo s.block (decode r₁), responseTo (blockAfter s.block (decode r₁)) (decode r₂)]⟩ :=
  run_requests [r₁, r₂] (by simp [encodesTransaction_iff, h₁, h₂]) hs

/-! ## The registers -/

theorem blockAfter_decode_msip (b : Block) (r : Request) :
    (blockAfter b (decode r)).msip = if writesAt 0x0200_0000#64 r then r.value else b.msip := by
  split_ifs with hwrite
  · obtain ⟨hop, ha⟩ := (writesAt_iff _ r).1 hwrite
    rw [decode_eq_writeMsip hop ha]
    rfl
  · exact blockAfter_msip_of_ne (fun w v h => hwrite (writesAt_of_decode_eq h rfl)) b

theorem blockAfter_decode_mtime (b : Block) (r : Request) :
    (blockAfter b (decode r)).mtime =
      if writesAt 0x0200_BFF8#64 r then r.value else if isTick r then b.mtime + 1 else b.mtime := by
  split_ifs with hwrite htick
  · obtain ⟨hop, ha⟩ := (writesAt_iff _ r).1 hwrite
    rw [decode_eq_writeMtime hop ha]
    rfl
  · rw [decode_tick ((isTick_iff r).1 htick)]
    rfl
  · exact blockAfter_mtime_of_ne (fun h => htick ((isTick_iff r).2 (op_eq_of_decode_eq h)))
      (fun w v h => hwrite (writesAt_of_decode_eq h rfl)) b

theorem blockAfter_decode_mtimecmp (b : Block) {r : Request} (htick : isTick r = false) :
    (blockAfter b (decode r)).mtimecmp = if writesAt 0x0200_4000#64 r then r.value else b.mtimecmp := by
  split_ifs with hwrite
  · obtain ⟨hop, ha⟩ := (writesAt_iff _ r).1 hwrite
    rw [decode_eq_writeMtimecmp hop ha]
    rfl
  · have hne : decode r ≠ .tick := fun h =>
      Bool.false_ne_true (htick.symm.trans ((isTick_iff r).2 (op_eq_of_decode_eq h)))
    exact blockAfter_mtimecmp_of_ne (fun h => absurd h hne) (fun w v h => hwrite (writesAt_of_decode_eq h rfl))

theorem blockAfterRequests_msip (b : Block) (rs : List Request) :
    (blockAfterRequests b rs).msip = lastWritten 0x0200_0000#64 b.msip rs := by
  induction rs generalizing b with
  | nil => rfl
  | cons r rs ih => rw [blockAfterRequests, ih, blockAfter_decode_msip, lastWritten]

theorem blockAfterRequests_mtime (b : Block) (rs : List Request) :
    (blockAfterRequests b rs).mtime = mtimeAfter b.mtime rs := by
  induction rs generalizing b with
  | nil => rfl
  | cons r rs ih => rw [blockAfterRequests, ih, blockAfter_decode_mtime, mtimeAfter]

theorem blockAfterRequests_mtimecmp (b : Block) {rs : List Request} (hrs : ∀ r ∈ rs, isTick r = false) :
    (blockAfterRequests b rs).mtimecmp = lastWritten 0x0200_4000#64 b.mtimecmp rs := by
  induction rs generalizing b with
  | nil => rfl
  | cons r rs ih =>
    obtain ⟨hr, hrs⟩ := List.forall_mem_cons.1 hrs
    rw [blockAfterRequests, ih _ hrs, blockAfter_decode_mtimecmp b hr, lastWritten]

/-- Settles O51: the run's block is the fold of `blockAfter` over the stream, read register by register. -/
theorem registersFollowTheTransactionStream : Obligations.RegistersFollowTheTransactionStream := by
  intro rs s hs hrs
  refine ⟨_, run_requests rs hrs (hs.trans (List.append_nil _).symm), rfl, ?_, blockAfterRequests_msip s.block rs,
    blockAfterRequests_mtime s.block rs, fun hticks => blockAfterRequests_mtimecmp s.block hticks⟩
  rw [List.length_append, length_responsesTo]

/-! ## A WRITE beside a READ -/

theorem blockAfter_decode_read {r : Request} (hop : r.op = 0b001#3) (b : Block) : blockAfter b (decode r) = b := by
  rw [decode_read hop]
  obtain h | h | h | h := decodeRead_rows r <;> rw [h] <;> rfl

theorem responseTo_decode_read {r : Request} (hop : r.op = 0b001#3) (b : Block) :
    responseTo b (decode r) = .result (.ok (readValue b r.addr)) := by
  rw [decode_read hop, decodeRead_eq, readValue]
  split_ifs with hmtime hmtimecmp hmsip <;> rfl

/-- Every bound address takes a WRITE to a row that answers `Ok(0)` (42_write.md R100; decision D3). -/
theorem responseTo_decode_write {r : Request} (hop : r.op = 0b010#3) (ha : writeBound r.addr = true) (b : Block) :
    responseTo b (decode r) = .result (.ok 0) := by
  rw [decode_write hop, decodeWrite_eq]
  split_ifs with hconsole huart hother hmtime hmtimecmp hmsip
  · rfl
  · rfl
  · rfl
  · rfl
  · rfl
  · rfl
  · have hfalse := (writeBound_eq_false_iff r.addr).2 ⟨hconsole, huart, hother, hmtime, hmtimecmp, hmsip⟩
    exact absurd (hfalse.symm.trans ha) Bool.false_ne_true

theorem run_write_read {s : State} {rw rr : Request} {rest : List Input}
    (hs : s.inputs = .request rw :: .request rr :: rest) (hw : rw.op = 0b010#3) (hr : rr.op = 0b001#3)
    (ha : writeBound rw.addr = true) :
    Host.Core.run Sys2Proof.core 2 s =
      .next ⟨blockAfter s.block (decode rw), rest,
        s.responses ++ [.result (.ok 0), .result (.ok (readValue (blockAfter s.block (decode rw)) rr.addr))]⟩ := by
  have hrun := run_two_requests hs (by simp [hw]) (by simp [hr])
  rwa [blockAfter_decode_read hr, responseTo_decode_read hr, responseTo_decode_write hw ha] at hrun

/-- Settles O26: the READ answers from the block the WRITE left, where it finds the register just stored, and at a
console address no register. -/
theorem registerWriteThenReadRoundTrips : Obligations.RegisterWriteThenReadRoundTrips := by
  intro s rw rr rest hs hw hr haddr
  constructor
  · intro hreg
    have hbound : writeBound rw.addr = true := by obtain h | h | h := hreg <;> rw [h] <;> decide
    refine ⟨_, run_write_read hs hw hr hbound, ?_⟩
    rw [haddr]
    obtain h | h | h := hreg
    · simp [decode_eq_writeMtime hw h, blockAfter, readValue, h]
    · simp [decode_eq_writeMtimecmp hw h, blockAfter, readValue, h]
    · simp [decode_eq_writeMsip hw h, blockAfter, readValue, h]
  · intro hconsole
    have hbound : writeBound rw.addr = true := by obtain h | h := hconsole <;> rw [h] <;> decide
    have hread (b : Block) : readValue b rw.addr = 0xAAAA_AAAA_AAAA_AAAA#64 := by
      obtain h | h := hconsole <;> rw [h] <;> rfl
    refine ⟨_, run_write_read hs hw hr hbound, ?_⟩
    rw [haddr, hread]

end Sys2Proof.Machine
end

section
/-! PROOF. The timer over several requests: a WRITE beside a TICK, and streams of TICKs up to the wrap (45_timer.md
R133, R134; 70_reset_and_hazards.md R161, R164 to R167). -/

namespace Sys2Proof.Machine

/-! ## A WRITE beside a TICK -/

theorem exists_result_of_decode_write {r : Request} (hop : r.op = 0b010#3) (b : Block) :
    ∃ x, responseTo b (decode r) = .result x := by
  by_cases ha : writeBound r.addr = true
  · exact ⟨.ok 0, responseTo_decode_write hop ha b⟩
  · rw [decode_eq_writeOther_of_not_writeBound hop (Bool.eq_false_iff.2 ha)]
    exact ⟨.storeAmoAccessFault, rfl⟩

theorem decode_ne_tick_of_write {r : Request} (hop : r.op = 0b010#3) : decode r ≠ .tick := fun h =>
  absurd (hop.symm.trans (op_eq_of_decode_eq h)) (by decide)

/-- A bound WRITE and a TICK: the TICK answers and latches the comparison of the registers the WRITE left. -/
theorem exists_run_write_tick {s : State} {rw rt : Request} {rest : List Input} {fires : Bool}
    (hs : s.inputs = .request rw :: .request rt :: rest) (hw : rw.op = 0b010#3) (ht : rt.op = 0b110#3)
    (ha : writeBound rw.addr = true) (hfires : timerFires (blockAfter s.block (decode rw)) = fires) :
    ∃ t : State, Host.Core.run Sys2Proof.core 2 s = .next t ∧
      t.responses = s.responses ++ [.result (.ok 0), .interruptPending fires] ∧ timerInterruptPending t = fires := by
  subst hfires
  have hrun := run_two_requests hs (by simp [hw]) (by simp [ht])
  rw [decode_tick ht, responseTo_decode_write hw ha] at hrun
  exact ⟨_, hrun, rfl, rfl⟩

/-- Settles O39: a TICK compares the registers as the WRITE before it left them; the WRITE after it adds its own
result and has the latch in its frame. -/
theorem writesArmTheNextTickOnly : Obligations.WritesArmTheNextTickOnly := by
  intro s rw rt rest hw ht
  refine ⟨fun hs ha => ?mtimecmp, fun hs ha => ?mtime, fun hs => ?after⟩
  case mtimecmp =>
    refine exists_run_write_tick hs hw ht (by rw [ha]; decide) ?_
    rw [decode_eq_writeMtimecmp hw ha, timerFires_eq_decide]
    rfl
  case mtime =>
    refine exists_run_write_tick hs hw ht (by rw [ha]; decide) ?_
    rw [decode_eq_writeMtime hw ha, timerFires_eq_decide]
    rfl
  case after =>
    have hrun := run_two_requests hs (by simp [ht]) (by simp [hw])
    obtain ⟨x, hx⟩ := exists_result_of_decode_write hw (tickBlock s.block)
    have htip := blockAfter_tip_of_ne_tick (decode_ne_tick_of_write hw) (tickBlock s.block)
    rw [decode_tick ht, blockAfter_tick, hx, responseTo_tick, timerFires_eq_decide] at hrun
    exact ⟨_, x, hrun, rfl, htip.trans (timerFires_eq_decide s.block)⟩

/-! ## Streams of TICKs -/

/-- The answers to `n` TICKs: the comparison of each block on the way. -/
def tickAnswers (b : Block) (n : Nat) : List Response :=
  (List.range n).map fun k => .interruptPending (timerFires (tickBlock^[k] b))

theorem length_tickAnswers (b : Block) (n : Nat) : (tickAnswers b n).length = n := by
  rw [tickAnswers, List.length_map, List.length_range]

theorem tickAnswers_succ (b : Block) (n : Nat) :
    tickAnswers b (n + 1) = .interruptPending (timerFires b) :: tickAnswers (tickBlock b) n := by
  simp [tickAnswers, List.range_succ_eq_map, Function.comp_def]

theorem blockAfterRequests_ticks (b : Block) {rs : List Request} (hrs : ∀ r ∈ rs, r.op = 0b110#3) :
    blockAfterRequests b rs = tickBlock^[rs.length] b := by
  induction rs generalizing b with
  | nil => rfl
  | cons r rs ih =>
    obtain ⟨hr, hrs⟩ := List.forall_mem_cons.1 hrs
    rw [blockAfterRequests, decode_tick hr, ih _ hrs]
    rfl

theorem responsesTo_ticks (b : Block) {rs : List Request} (hrs : ∀ r ∈ rs, r.op = 0b110#3) :
    responsesTo b rs = tickAnswers b rs.length := by
  induction rs generalizing b with
  | nil => rfl
  | cons r rs ih =>
    obtain ⟨hr, hrs⟩ := List.forall_mem_cons.1 hrs
    rw [responsesTo, decode_tick hr, ih _ hrs, List.length_cons, tickAnswers_succ]
    rfl

theorem run_ticks {rs : List Request} {s : State} {rest : List Input} (hrs : ∀ r ∈ rs, r.op = 0b110#3)
    (hs : s.inputs = rs.map .request ++ rest) :
    Host.Core.run Sys2Proof.core rs.length s =
      .next ⟨tickBlock^[rs.length] s.block, rest, s.responses ++ tickAnswers s.block rs.length⟩ := by
  have henc : ∀ r ∈ rs, encodesTransaction r = true := fun r hr => by
    rw [encodesTransaction_iff, hrs r hr]
    decide
  rw [run_requests rs henc hs, blockAfterRequests_ticks _ hrs, responsesTo_ticks _ hrs]

/-! ## The wrap -/

/-- Once the threshold is 0, by its value or by a TICK that fired, it stays 0 over TICKs. -/
theorem tickBlock_mtimecmp_eq_zero {b : Block} (h : timerFires b = true ∨ b.mtimecmp = 0) :
    (tickBlock b).mtimecmp = 0 := by
  rw [tickBlock_mtimecmp]
  split_ifs with hfires
  · rfl
  · exact h.resolve_left hfires

theorem timerFires_of_mtimecmp_eq_zero {b : Block} (h : b.mtimecmp = 0) :
    timerFires b = decide (b.mtime.toNat = 0) := by
  rw [timerFires_eq_decide, h]
  exact decide_eq_decide.2 Nat.le_zero

/-- Settles O40: the first TICK fires and clears the threshold, and the two after it fire only on a counter of 0. -/
theorem timerFiresOnceButTwiceAtTheWrap : Obligations.TimerFiresOnceButTwiceAtTheWrap := by
  intro s r₁ r₂ r₃ rest hs h₁ h₂ h₃ hle
  have hrun := run_ticks (rs := [r₁, r₂, r₃]) (by simp [h₁, h₂, h₃]) hs
  have hfires : timerFires s.block = true := (timerFires_iff_toNat s.block).2 hle
  have hzero := tickBlock_mtimecmp_eq_zero (.inl hfires)
  have hzero' := tickBlock_mtimecmp_eq_zero (.inr hzero)
  have hsecond : timerFires (tickBlock s.block) = decide (s.block.mtime.toNat = 2 ^ 64 - 1) := by
    rw [timerFires_of_mtimecmp_eq_zero hzero, tickBlock_mtime, decide_eq_decide]
    bv_omega
  have hthird : timerFires (tickBlock (tickBlock s.block)) = decide (s.block.mtime.toNat = 2 ^ 64 - 2) := by
    rw [timerFires_of_mtimecmp_eq_zero hzero', tickBlock_mtime, tickBlock_mtime, decide_eq_decide]
    bv_omega
  refine ⟨_, hrun, ?_⟩
  rw [← hsecond, ← hthird, ← hfires]
  rfl

theorem tickBlock_iterate_mtime_toNat (b : Block) (k : Nat) :
    (tickBlock^[k] b).mtime.toNat = (b.mtime.toNat + k) % 2 ^ 64 := by
  induction k with
  | zero => exact (Nat.mod_eq_of_lt b.mtime.isLt).symm
  | succ k ih =>
    rw [Function.iterate_succ_apply', tickBlock_mtime, BitVec.toNat_add, ih]
    simp [Nat.add_assoc]

/-- With the threshold below the counter no TICK fires before the wrap, so none clears the threshold. -/
theorem tickBlock_iterate_mtimecmp {b : Block} {k : Nat} (h : b.mtimecmp.toNat < b.mtime.toNat)
    (hk : b.mtime.toNat + k ≤ 2 ^ 64) : (tickBlock^[k] b).mtimecmp = b.mtimecmp := by
  induction k with
  | zero => rfl
  | succ k ih =>
    have hsame := ih (by omega)
    rw [Function.iterate_succ_apply', tickBlock_mtimecmp_of_not_fires, hsame]
    rw [timerFires_eq_false_iff_toNat, hsame, tickBlock_iterate_mtime_toNat]
    omega

/-- The first TICK of a disarmed timer that fires is the one at the wrap. -/
theorem timerFires_tickBlock_iterate {b : Block} {k : Nat} (h : b.mtimecmp.toNat < b.mtime.toNat)
    (hk : b.mtime.toNat + k ≤ 2 ^ 64) : timerFires (tickBlock^[k] b) = decide (b.mtime.toNat + k = 2 ^ 64) := by
  rw [timerFires_eq_decide, tickBlock_iterate_mtimecmp h hk, tickBlock_iterate_mtime_toNat, decide_eq_decide]
  omega

/-- Settles O41: none of the `n` TICKs is the one at the wrap. -/
theorem disarmedTimerCountsWithoutFiring : Obligations.DisarmedTimerCountsWithoutFiring := by
  intro rs s hs hrs hlt hn
  have hquiet : tickAnswers s.block rs.length = List.replicate rs.length (.interruptPending false) := by
    refine List.eq_replicate_iff.2 ⟨length_tickAnswers _ _, List.forall_mem_map.2 fun k hmem => ?_⟩
    have hk : k < rs.length := List.mem_range.1 hmem
    rw [timerFires_tickBlock_iterate hlt (by omega), decide_eq_false (by omega)]
  refine ⟨_, run_ticks hrs (hs.trans (List.append_nil _).symm), ?_, tickBlock_iterate_mtimecmp hlt hn,
    tickBlock_iterate_mtime_toNat s.block rs.length⟩
  rw [hquiet]

/-- Settles O42: reset leaves the threshold 0 below the counter 1, so the `k`-th TICK finds the counter at `k`. -/
theorem firstFireAfterResetIsAtTheWrap : Obligations.FirstFireAfterResetIsAtTheWrap := by
  intro rs hrs hn
  refine ⟨_, run_ticks (s := { State.reset with inputs := rs.map .request }) hrs (List.append_nil _).symm,
    length_tickAnswers _ _, fun k hk => ?_⟩
  have hwrap : timerFires (tickBlock^[k] Block.reset) = decide (1 + k = 2 ^ 64) :=
    timerFires_tickBlock_iterate (b := Block.reset) (by decide) (show 1 + k ≤ 2 ^ 64 by omega)
  simp [tickAnswers, hk, hwrap, Nat.add_comm k 1]

end Sys2Proof.Machine
end

section
/-! PROOF. The classifier and the addresses READ and WRITE bind: disjoint windows, their addresses as lists, and what
the block answers inside and outside them (20_memory.md R41 to R44, R57; 40_classifier.md R82). -/

namespace Sys2Proof.Machine

/-! ## The windows are disjoint -/

theorem limit_toNat_of_mem_ranges : ∀ w ∈ Config.platform.ranges, w.limit.toNat = w.base.toNat + w.size.toNat := by
  decide

/-- 20_memory.md R42. -/
theorem ranges_disjoint :
    ∀ w ∈ Config.platform.ranges, ∀ w' ∈ Config.platform.ranges, w ≠ w' →
      w.base.toNat + w.size.toNat ≤ w'.base.toNat ∨ w'.base.toNat + w'.size.toNat ≤ w.base.toNat := by
  decide

/-- The classifier over numbers, where no limit wraps. -/
theorem isIo_iff_exists_window (a : Addr) :
    isIo a = true ↔ ∃ w ∈ Config.platform.ranges, w.base ≤ a ∧ a.toNat < w.base.toNat + w.size.toNat := by
  simp only [isIo, classifyIn_iff, inWindow_iff, BitVec.lt_def]
  refine exists_congr fun w => and_congr_right fun hw => ?_
  rw [limit_toNat_of_mem_ranges w hw]

theorem window_unique {a : Addr} {w w' : Config.Window} (hw : w ∈ Config.platform.ranges)
    (hw' : w' ∈ Config.platform.ranges) (h : w.base ≤ a ∧ a.toNat < w.base.toNat + w.size.toNat)
    (h' : w'.base ≤ a ∧ a.toNat < w'.base.toNat + w'.size.toNat) : w = w' := by
  by_contra hne
  have hdisjoint := ranges_disjoint w hw w' hw' hne
  simp only [BitVec.le_def] at h h'
  omega

/-- Settles O12: some window holds the address, and two that do are one. -/
theorem classifiedAddressLiesInExactlyOneWindow : Obligations.ClassifiedAddressLiesInExactlyOneWindow := by
  intro a
  rw [isIo_iff_exists_window]
  constructor
  · rintro ⟨w, hw, h⟩
    exact ⟨w, ⟨hw, h⟩, fun w' hw' => window_unique hw'.1 hw hw'.2 h⟩
  · rintro ⟨w, hw, -⟩
    exact ⟨w, hw⟩

/-! ## Bound addresses are classified -/

theorem readBound_iff (a : Addr) :
    readBound a = true ↔ a = 0x0200_BFF8#64 ∨ a = 0x0200_4000#64 ∨ a = 0x0200_0000#64 := by
  simp [readBound, or_assoc]

theorem isIo_of_readBound {a : Addr} (h : readBound a = true) : isIo a = true := by
  obtain rfl | rfl | rfl := (readBound_iff a).1 h <;> decide

theorem isIo_of_writeBound {a : Addr} (h : writeBound a = true) : isIo a = true := by
  simp only [writeBound, Bool.or_eq_true, beq_iff_eq, uartOtherRange_iff, consoleOutAddr_eq, uartOutAddr_eq,
    mtimeAddr_eq, mtimecmpAddr_eq, msipAddr_eq] at h
  obtain ((((rfl | rfl) | ⟨hlo, hhi⟩) | rfl) | rfl) | rfl := h
  · decide
  · decide
  · exact (isIo_iff a).2 (.inr (.inl ⟨by bv_omega, hhi⟩))
  · decide
  · decide
  · decide

theorem writeBound_eq_false_of_isIo_eq_false {a : Addr} (h : isIo a = false) : writeBound a = false := by
  rw [← Bool.not_eq_true] at h ⊢
  exact fun hbound => h (isIo_of_writeBound hbound)

theorem readBound_eq_false_of_isIo_eq_false {a : Addr} (h : isIo a = false) : readBound a = false := by
  rw [← Bool.not_eq_true] at h ⊢
  exact fun hbound => h (isIo_of_readBound hbound)

/-- Settles O48: a rejected address is bound by no row, and each catch-all answers without a change. -/
theorem rejectedAddressesAreStillAnswered : Obligations.RejectedAddressesAreStillAnswered := by
  intro r s ha
  refine ⟨fun hop => ?_, fun hop => ?_⟩
  · rw [decode_eq_readOther hop (readBound_eq_false_of_isIo_eq_false ha), exec_readOther]
    rfl
  · obtain hop | hop := hop
    · rw [decode_eq_writeOther_of_not_writeBound hop (writeBound_eq_false_of_isIo_eq_false ha), exec_writeOther]
    · rw [decode_amo hop, exec_amo]

/-! ## The duty H1 -/

/-- Of the classified addresses WRITE leaves unbound the other 7 bytes of each 8-byte window (20_memory.md R44). -/
theorem writeBound_eq_false_iff_of_isIo {a : Addr} (h : isIo a = true) :
    writeBound a = false ↔
      (0xFFF5#64 ≤ a ∧ a ≤ 0xFFFB#64) ∨ (0x0200_BFF9#64 ≤ a ∧ a ≤ 0x0200_BFFF#64) ∨
        (0x0200_4001#64 ≤ a ∧ a ≤ 0x0200_4007#64) ∨ (0x0200_0001#64 ≤ a ∧ a ≤ 0x0200_0007#64) := by
  rw [writeBound_eq_false_iff]
  obtain h | h | h | h | h := (isIo_iff a).1 h <;> bv_omega

/-- A WRITE answers the fault exactly at the addresses no row binds (42_write.md R107). -/
theorem exec_decode_write_eq_fault_iff {r : Request} (hop : r.op = 0b010#3) (s : State) :
    exec (decode r) s = .next { s with responses := s.responses ++ [.result .storeAmoAccessFault] } ↔
      writeBound r.addr = false := by
  constructor
  · intro h
    have hrow : (decode r).isFaultRow = true := (responses_eq_fault_iff h).1 rfl
    rwa [decode_write hop, isFaultRow_decodeWrite_iff, ← writeBound_eq_false_iff] at hrow
  · intro ha
    rw [decode_eq_writeOther_of_not_writeBound hop ha, exec_writeOther]

/-- At every address some row binds, a WRITE answers `Ok(0)`. -/
theorem exec_decode_write {r : Request} (hop : r.op = 0b010#3) (ha : writeBound r.addr = true) (s : State) :
    exec (decode r) s =
      .next { s with block := blockAfter s.block (decode r), responses := s.responses ++ [.result (.ok 0)] } := by
  have hres : decode r ≠ .reserved := decode_ne_reserved (by rw [hop]; decide)
  rw [exec_eq_complete hres, responseTo_decode_write hop ha]
  rfl

theorem keepsH1_write {r : Request} (hop : r.op = 0b010#3) : keepsH1 r = isIo r.addr := by
  have h : Op.ofBits r.op = .write := Op.ofBits_eq hop
  simp only [keepsH1, h]

theorem keepsH1_read {r : Request} (hop : r.op = 0b001#3) : keepsH1 r = isIo r.addr := by
  have h : Op.ofBits r.op = .read := Op.ofBits_eq hop
  simp only [keepsH1, h]

/-- Settles O49: a WRITE faults at the unbound addresses, and H1 leaves those inside the windows. -/
theorem underH1WritesFaultOnlyInsideRegisterWindows : Obligations.UnderH1WritesFaultOnlyInsideRegisterWindows := by
  intro r s hop hduty
  rw [keepsH1_write hop] at hduty
  rw [exec_decode_write_eq_fault_iff hop, writeBound_eq_false_iff_of_isIo hduty]

/-- Settles O50: the classifier decides whether there is a request, and the byte count is its tag. -/
theorem callerRoutesThroughTheClassifier : Obligations.CallerRoutesThroughTheClassifier := by
  intro a n v
  refine ⟨fun h => by simp [memRead, memWrite, h], fun h => ?_⟩
  refine ⟨_, _, if_pos h, if_pos h, (keepsH1_read rfl).trans h, (keepsH1_write rfl).trans h, fun s => ⟨?_, ?_⟩⟩
  · exact exec_decode_wtag { op := 0b001#3, addr := a } n s
  · exact exec_decode_wtag { op := 0b010#3, addr := a, value := v } n s

/-! ## The addresses as lists -/

/-- The addresses of a window, in order. -/
def windowAddrs (w : Config.Window) : List Addr :=
  (List.range' w.base.toNat w.size.toNat).map (BitVec.ofNat 64)

/-- The addresses of the five windows. -/
def classifiedAddrs : List Addr := Config.platform.ranges.flatMap windowAddrs

theorem mem_windowAddrs {w : Config.Window} (hw : w.base.toNat + w.size.toNat ≤ 2 ^ 64) (a : Addr) :
    a ∈ windowAddrs w ↔ w.base ≤ a ∧ a.toNat < w.base.toNat + w.size.toNat := by
  simp only [windowAddrs, List.mem_map, List.mem_range'_1, BitVec.le_def]
  constructor
  · rintro ⟨n, hn, rfl⟩
    rwa [BitVec.toNat_ofNat, Nat.mod_eq_of_lt (by omega)]
  · exact fun h => ⟨a.toNat, h, by rw [BitVec.ofNat_toNat, BitVec.setWidth_eq]⟩

theorem nodup_windowAddrs {w : Config.Window} (hw : w.base.toNat + w.size.toNat ≤ 2 ^ 64) : (windowAddrs w).Nodup := by
  refine List.Nodup.map_on (fun m hm n hn h => ?_) List.nodup_range'
  rw [List.mem_range'_1] at hm hn
  have hnat := congrArg BitVec.toNat h
  rwa [BitVec.toNat_ofNat, BitVec.toNat_ofNat, Nat.mod_eq_of_lt (by omega), Nat.mod_eq_of_lt (by omega)] at hnat

theorem no_wrap_of_mem_ranges : ∀ w ∈ Config.platform.ranges, w.base.toNat + w.size.toNat ≤ 2 ^ 64 := by
  decide

theorem mem_classifiedAddrs (a : Addr) : a ∈ classifiedAddrs ↔ isIo a = true := by
  rw [isIo_iff_exists_window, classifiedAddrs, List.mem_flatMap]
  exact exists_congr fun w => and_congr_right fun hw => mem_windowAddrs (no_wrap_of_mem_ranges w hw) a

theorem nodup_classifiedAddrs : classifiedAddrs.Nodup := by
  refine List.nodup_flatMap.2 ⟨fun w hw => nodup_windowAddrs (no_wrap_of_mem_ranges w hw), ?_⟩
  refine List.Nodup.pairwise_of_forall_ne (by decide) fun w hw w' hw' hne a ha ha' => hne ?_
  exact window_unique hw hw' ((mem_windowAddrs (no_wrap_of_mem_ranges w hw) a).1 ha)
    ((mem_windowAddrs (no_wrap_of_mem_ranges w' hw') a).1 ha')

theorem length_windowAddrs (w : Config.Window) : (windowAddrs w).length = w.size.toNat := by
  rw [windowAddrs, List.length_map, List.length_range']

theorem length_classifiedAddrs : classifiedAddrs.length = 160 := by
  simp only [classifiedAddrs, List.length_flatMap, length_windowAddrs]
  decide

theorem length_filter_readBound : (classifiedAddrs.filter readBound).length = 3 := by decide

theorem length_filter_not_writeBound : (classifiedAddrs.filter (!writeBound ·)).length = 28 := by decide

theorem length_filter_writeBound : (classifiedAddrs.filter writeBound).length = 132 := by
  have hsplit := List.length_eq_length_filter_add (l := classifiedAddrs) writeBound
  rw [length_classifiedAddrs, length_filter_not_writeBound] at hsplit
  omega

/-! ## The bound addresses by the decoder -/

theorem decode_eq_readOther_iff {r : Request} (hop : r.op = 0b001#3) :
    decode r = .readOther r.wtag r.addr ↔ readBound r.addr = false :=
  ⟨fun h => (wellFormed_readOther_iff _ _).1 (h ▸ wellFormed_decode r), decode_eq_readOther hop⟩

theorem decode_eq_writeOther_iff {r : Request} (hop : r.op = 0b010#3) :
    decode r = .writeOther r.wtag r.addr r.value ↔ writeBound r.addr = false :=
  ⟨fun h => (wellFormed_writeOther_iff _ _ _).1 (h ▸ wellFormed_decode r), decode_eq_writeOther_of_not_writeBound hop⟩

/-- A bound READ address reads one register, the same in every block. -/
theorem exists_register_of_readBound {a : Addr} (h : readBound a = true) :
    ∃ register : Block → Word, (register = Block.mtime ∨ register = Block.mtimecmp ∨ register = Block.msip) ∧
      ∀ b, readValue b a = register b := by
  obtain rfl | rfl | rfl := (readBound_iff a).1 h
  · exact ⟨Block.mtime, .inl rfl, fun _ => rfl⟩
  · exact ⟨Block.mtimecmp, .inr (.inl rfl), fun _ => rfl⟩
  · exact ⟨Block.msip, .inr (.inr rfl), fun _ => rfl⟩

/-- Settles O13: the lists are the windows' addresses and three choices from them by the bound addresses, which the
decoder tells apart and the meanings answer. -/
theorem countsOfClassifiedAndBoundAddresses : Obligations.CountsOfClassifiedAndBoundAddresses := by
  have hread (a : Addr) (w : Config.WidthTag) :
      decode { op := 0b001#3, addr := a, wtag := w } = .readOther w a ↔ readBound a = false :=
    decode_eq_readOther_iff (r := { op := 0b001#3, addr := a, wtag := w }) rfl
  have hwrite (a : Addr) (w : Config.WidthTag) (v : Word) :
      decode { op := 0b010#3, addr := a, wtag := w, value := v } = .writeOther w a v ↔ writeBound a = false :=
    decode_eq_writeOther_iff (r := { op := 0b010#3, addr := a, wtag := w, value := v }) rfl
  refine ⟨⟨classifiedAddrs, nodup_classifiedAddrs, length_classifiedAddrs, mem_classifiedAddrs⟩,
    ⟨_, nodup_classifiedAddrs.filter _, length_filter_readBound, fun a => ?memRead, fun a ha => ?read⟩,
    ⟨_, nodup_classifiedAddrs.filter _, length_filter_writeBound, fun a => ?memWrite, fun a ha w v s => ?write⟩,
    ⟨_, nodup_classifiedAddrs.filter _, length_filter_not_writeBound, fun a => ?memFault, fun a ha w v s => ?fault⟩,
    fun r hop h => ?readClassified, fun r hop h => ?writeClassified⟩
  case memRead => simp only [List.mem_filter, mem_classifiedAddrs, ne_eq, hread, Bool.not_eq_false, forall_const]
  case memWrite => simp only [List.mem_filter, mem_classifiedAddrs, ne_eq, hwrite, Bool.not_eq_false, forall_const]
  case memFault => simp only [List.mem_filter, mem_classifiedAddrs, hwrite, Bool.not_eq_true', forall_const]
  case read =>
    obtain ⟨register, hregister, hvalue⟩ := exists_register_of_readBound (List.of_mem_filter ha)
    refine ⟨register, hregister, fun w s => ?_⟩
    rw [← hvalue]
    exact exec_decode_read rfl s
  case write => exact ⟨_, exec_decode_write rfl (List.of_mem_filter ha) s⟩
  case fault =>
    have hbound : writeBound a = false := by simpa using List.of_mem_filter ha
    exact (exec_decode_write_eq_fault_iff rfl s).2 hbound
  case readClassified =>
    by_contra ha
    exact h (decode_eq_readOther hop (readBound_eq_false_of_isIo_eq_false (Bool.eq_false_iff.2 ha)))
  case writeClassified =>
    by_contra ha
    exact h (decode_eq_writeOther_of_not_writeBound hop
      (writeBound_eq_false_of_isIo_eq_false (Bool.eq_false_iff.2 ha)))

end Sys2Proof.Machine
end
